-- ==== Sys2Proof/Word.lean ====
section
/-! DEFINITION. The two plain types of the block: a byte and the level of a line (00_scope R11). -/

namespace Sys2Proof

/-- An unsigned 8-bit value (R11): a byte of the wire, of a store or of the framebuffer. -/
abbrev Byte := BitVec 8

/-- The level of a one-bit line or register: `true` is 1 (high), `false` is 0 (low). -/
abbrev Level := Bool

end Sys2Proof
end

