-- ==== Sys2Proof/Config.lean ====
section
/-! DEFINITION. The implementation parameters of 00_scope R8 as plain data, and the model's free values. -/

namespace Sys2Proof

/-- One entry `(c, ds)` of `INIT_CFG` or `SLEEP_SEQ` (R8): a command byte and its data bytes, possibly none. -/
structure CmdEntry where
  cmd  : Byte
  data : List Byte
  deriving DecidableEq, Repr, Inhabited

/-- The parameters of R8, each OPEN in the spec. The derived ones (`FB_LEN`, `N_CFG`) are functions of these.
Which parameters form a configuration is R9's check, in WellFormed.lean. -/
structure Params where
  /-- `WIDTH`, in pixels. -/
  width          : Nat
  /-- `HEIGHT`, in pixels. -/
  height         : Nat
  /-- `LUT_CMD`. -/
  lutCmd         : Byte
  /-- `LUT_LEN`. -/
  lutLen         : Nat
  /-- `LUT`. -/
  lut            : List Byte
  /-- `INIT_CFG`. -/
  initCfg        : List CmdEntry
  /-- `DTM_CMD`, "start data transmission". -/
  dtmCmd         : Byte
  /-- `REFRESH_CMD`. -/
  refreshCmd     : Byte
  /-- `SLEEP_SEQ`. -/
  sleepSeq       : List CmdEntry
  /-- `CLEAR_BYTE`. -/
  clearByte      : Byte
  /-- `BUSY_READY_LEVEL`: the busy-line level that means "ready". -/
  busyReadyLevel : Level
  /-- `POLL_DELAY_MS`. -/
  pollDelayMs    : Nat
  /-- `MAX_POLLS`. -/
  maxPolls       : Nat
  /-- `T_RST_LOW_MS`. -/
  tRstLowMs      : Nat
  /-- `T_RST_HIGH_MS`. -/
  tRstHighMs     : Nat
  /-- `FB_ABITS`: width of the framebuffer read address. -/
  fbAbits        : Nat
  /-- `LEN_BITS`: width of the length operand of DISPLAY. -/
  lenBits        : Nat
  deriving DecidableEq, Repr, Inhabited

/-- `FB_LEN = WIDTH*HEIGHT/8` (R8), in bytes. -/
def Params.fbLen (p : Params) : Nat := p.width * p.height / 8

/-- `N_CFG = len(INIT_CFG)` (R8). -/
def Params.nCfg (p : Params) : Nat := p.initCfg.length

/-- The parameters the chip was built with: OPEN in the spec (D13, D17, D38, D39), so a constant with no body.
Log 1. -/
opaque Config.chipParams : Params

/-- The busy-line level at the n-th poll, where the environment's list in State says nothing of it: a free
value (10_state R31, "a bit the environment chooses, under no law"). Log 5. -/
opaque Config.busyDraw : Nat → Level

end Sys2Proof
end

