-- ==== Sys2Proof/Syntax.lean ====
section
/-! DEFINITION. The host operations: one constructor for each row of spec/opcode_table.json (30_encoding R71). -/

namespace Sys2Proof

/-- A host operation as its word gives it. The two other operands of DISPLAY, `base` and `len`, are not bits of
the word: they come from the side ports and are latched in State at acceptance (R73). -/
inductive Instr where
  /-- `Init()`, 41_init_reset R120. -/
  | init
  /-- `Reset()`, 41_init_reset R124. -/
  | reset
  /-- `SetLut()`, 42_lut_loader R141. -/
  | setlut
  /-- `DisplayFrame(buffer, inverted)`, 44_framebuffer_serializer R171; `inv` is the INV bit (R72). -/
  | display (inv : Bool)
  /-- `Clear()`, 44_framebuffer_serializer R174. -/
  | clear
  /-- `Sleep()`, 45_sleep R190. -/
  | sleep
  /-- `WaitUntilIdle()`, 43_busy_synchronizer R155. -/
  | waitidle
  deriving DecidableEq, Repr

end Sys2Proof
end

