-- ==== Sys2Proof/WellFormed.lean ====
section
/-! DEFINITION. What is well formed: a configuration (00_scope R9), and an instruction. -/

namespace Sys2Proof

/-- The check of R9 that a configuration fails, by name. -/
inductive ConfigProblem where
  /-- `WIDTH ≥ 1` fails. -/
  | zeroWidth
  /-- `HEIGHT ≥ 1` fails. -/
  | zeroHeight
  /-- `(WIDTH*HEIGHT) mod 8 = 0` fails. -/
  | partialByte
  /-- `LUT_LEN ≥ 1` fails. -/
  | emptyLut
  /-- `len(LUT) = LUT_LEN` fails. -/
  | lutLength
  /-- `MAX_POLLS ≥ 1` fails. -/
  | zeroMaxPolls
  /-- `CLEAR_BYTE ∈ {0x00, 0xFF}` fails. -/
  | clearByte
  /-- `SLEEP_SEQ` is empty. -/
  | emptySleepSeq
  /-- `FB_LEN < 2^LEN_BITS` fails. -/
  | lengthBits
  /-- `FB_ABITS ≥ 1` (the constraint of R8's table) fails. Log 2. -/
  | zeroAddressBits
  deriving DecidableEq, Repr

/-- The first check of R9 that fails, none where all hold. "Every byte in the range 0..255" holds by type. -/
def Params.problem (p : Params) : Option ConfigProblem :=
  if p.width = 0 then some .zeroWidth
  else if p.height = 0 then some .zeroHeight
  else if p.width * p.height % 8 ≠ 0 then some .partialByte
  else if p.lutLen = 0 then some .emptyLut
  else if p.lut.length ≠ p.lutLen then some .lutLength
  else if p.maxPolls = 0 then some .zeroMaxPolls
  else if p.clearByte ≠ 0x00 ∧ p.clearByte ≠ 0xFF then some .clearByte
  else if p.sleepSeq = [] then some .emptySleepSeq
  else if 2 ^ p.lenBits ≤ p.fbLen then some .lengthBits
  else if p.fbAbits = 0 then some .zeroAddressBits
  else none

/-- R9: the parameters form a configuration. -/
abbrev Params.WellFormed (p : Params) : Prop := p.problem = none

/-- A configuration: parameters that pass R9. An ill-formed one has no value of this type, so the model gives it
no meaning (R9, R217). -/
structure Config extends Params where
  ok : toParams.WellFormed
  deriving DecidableEq, Repr

/-- R9: a configuration is refused, with the check it fails, or taken. -/
def Config.ofParams (p : Params) : Except ConfigProblem Config :=
  match h : p.problem with
  | some why => .error why
  | none => .ok ⟨p, h⟩

/-- The smallest configuration, one byte of framebuffer and one poll: what `Config.chip` is if the open
parameters form no configuration. No rule and no statement uses it. Log 1. -/
def Config.smallest : Config where
  width := 8
  height := 1
  lutCmd := 0
  lutLen := 1
  lut := [0]
  initCfg := []
  dtmCmd := 0
  refreshCmd := 0
  sleepSeq := [⟨0, []⟩]
  clearByte := 0
  busyReadyLevel := true
  pollDelayMs := 0
  maxPolls := 1
  tRstLowMs := 0
  tRstHighMs := 0
  fbAbits := 1
  lenBits := 1
  ok := by decide

/-- The configuration the chip was built with (R33, R34, R41): any well-formed one, since nothing can be proved
of `Config.chipParams`. Log 1. -/
def Config.chip : Config :=
  if h : Config.chipParams.WellFormed then ⟨Config.chipParams, h⟩ else Config.smallest

/-- Every term of `Instr` is well formed: the only operand is one bit, and every value of it is encodable (R72). -/
def Instr.wellFormed : Instr → Bool
  | .init | .reset | .setlut | .display _ | .clear | .sleep | .waitidle => true

end Sys2Proof
end

