-- ==== Sys2Proof/Machine/State.lean ====
section
/-! DEFINITION. The state of the block and of what stands around it (10_state R20 to R41), as plain data. -/

namespace Sys2Proof.Machine

/-- The five states of the protocol state machine (R22). Codes 5, 6 and 7 have no value here (R40). -/
inductive Fsm where
  /-- Uninitialized. -/
  | uninit
  /-- AwaitingLutLoad. -/
  | awaitLut
  /-- Ready. -/
  | ready
  /-- Busy. -/
  | busy
  /-- Asleep. -/
  | asleep
  deriving DecidableEq, Repr

/-- The status codes (30_encoding R75). -/
inductive Status where
  | ok
  | timeout
  | badlen
  | illegal
  deriving DecidableEq, Repr

/-- The transport events of the trace (R28). -/
inductive Event where
  /-- The reset line is driven to level `v`. -/
  | setRst (v : Level)
  /-- The block waits `n` milliseconds. -/
  | delay (n : Nat)
  /-- The busy line was read and had level `v`. -/
  | poll (v : Level)
  /-- One command transaction carrying `b`. -/
  | cmd (b : Byte)
  /-- One data transaction carrying `b`. -/
  | data (b : Byte)
  deriving DecidableEq, Repr

/-- A transaction on the transport port: `tx_is_data` and `tx_byte` (R35). -/
inductive Tx where
  /-- `tx_is_data = 0`. -/
  | cmd (b : Byte)
  /-- `tx_is_data = 1`. -/
  | data (b : Byte)
  deriving DecidableEq, Repr

/-- A host word with what the side ports carry beside it: `op_word`, `op_fb_base`, `op_fb_len` (R35, R73). -/
structure HostOp where
  word : Byte
  base : Nat
  len  : Nat
  deriving DecidableEq, Repr

/-- What the host does to the block, in the order it does it (R21, R35, R251). Log 3. -/
inductive Input where
  /-- A host word is offered; the host leaves the block to complete it. -/
  | word (op : HostOp)
  /-- The same, watched at every move of the sequencer (40 R100): each step is one move until it completes. Log 9. -/
  | wordByMoves (op : HostOp)
  /-- A host word is offered, and `rst_n` goes low after `n` moves of the sequencer (70 R241). Log 13. -/
  | wordCut (op : HostOp) (n : Nat)
  /-- `rst_n` goes low and high again between two operations (70 R240). -/
  | blockReset
  /-- The host writes one byte of its framebuffer memory (20 R60). -/
  | write (addr : Nat) (b : Byte)
  deriving DecidableEq, Repr

/-- The phase of an operation's sequence (R36). -/
inductive Phase where
  /-- No operation is active. -/
  | idle
  /-- ResetPulse (40 R106); the index counts its four events. -/
  | pulse
  /-- A poll of WaitUntilIdle comes next (43 R151). -/
  | poll
  /-- The delay between two polls comes next (43 R151). -/
  | gap
  /-- The transactions of INIT_CFG. -/
  | config
  /-- The transactions of LoadLut (42 R140). -/
  | lut
  /-- The transactions of SendFrame (44 R170). -/
  | frame
  /-- The transactions of SLEEP_SEQ. -/
  | sleep
  deriving DecidableEq, Repr

/-- The hidden sequencer state (R36), not readable by the host. -/
structure Sequencer where
  /-- The latched `op_word`. -/
  word  : Byte
  /-- The latched `op_fb_base`, zero-extended (R73). -/
  base  : Nat
  /-- The latched `op_fb_len`, zero-extended (R73). -/
  len   : Nat
  /-- The `legal` bit of the accepted word (40 R107). -/
  legal : Bool
  phase : Phase
  /-- The index into the phase's sequence. -/
  index : Nat
  /-- The poll counter of 43 R151. -/
  k     : Nat
  /-- The milliseconds left of a delay in progress (40 R103). -/
  ms    : Nat
  deriving DecidableEq, Repr

/-- The sequencer idle, as the block reset leaves it (R41). Its contents are unspecified and unobservable; the
model names zeros. Log 7. -/
def Sequencer.idle : Sequencer :=
  { word := 0, base := 0, len := 0, legal := false, phase := .idle, index := 0, k := 0, ms := 0 }

/-- The two flip-flops of the busy synchroniser (R37, 43 R150). A poll reads the second. -/
structure Synchronizer where
  ff1 : Level
  ff2 : Level
  deriving DecidableEq, Repr

/-- The machine: the block's registers and ports, its hidden state, its built-in stores, and its environment. -/
structure State where
  /-- `reg.STATE` (R22). -/
  fsm      : Fsm
  /-- `reg.STATUS` (R24). -/
  status   : Status
  /-- `reg.MISUSE`, sticky (R25). -/
  misuse   : Bool
  /-- `reg.RST_LINE` (R26). -/
  rstLine  : Level
  /-- `reg.ACTIVE` (R27). -/
  active   : Bool
  /-- The `done` output (R35): true in the state an operation's completion leads to. Log 17. -/
  done     : Bool
  /-- The transaction offered on `tx_valid`, `tx_is_data`, `tx_byte` (R35); none is `tx_valid = 0`. -/
  tx       : Option Tx
  /-- The framebuffer read requested on `fb_rd_en`, `fb_rd_addr` (R35); none is `fb_rd_en = 0`. -/
  fbRd     : Option Nat
  /-- The hidden sequencer state (R36). -/
  seq      : Sequencer
  /-- The busy synchroniser (R37). -/
  sync     : Synchronizer
  /-- The read-only stores and the geometry (R33, R34). No operation writes them. -/
  cfg      : Config
  /-- The trace, oldest event first (R28, R29). -/
  trace    : List Event
  /-- The status of each completed host word, oldest first (70 R251). -/
  statuses : List Status
  /-- Framebuffer memory (R32): the bytes that differ from `Memory.unlisted`, addresses rising. -/
  mem      : List Host.Cell
  /-- What the host does next, first thing first (R21, R251). -/
  inputs   : List Input
  /-- The index of the next host operation in the host's list: how many words were accepted (R21). -/
  opIndex  : Nat
  /-- The busy-line bits the environment has chosen, first poll first; past its end the level is free (R31). -/
  draws    : List Level
  /-- How many draws polls have consumed (40 R101). -/
  nDraws   : Nat
  deriving DecidableEq, Repr

/-- Why a step can fault. -/
inductive Fault where
  /-- The host writes a byte at an address that is not one of the `2^FB_ABITS` of framebuffer memory (20 R50).
  Raised by `step` alone, at an `Input.write`; safe: the machine stops where there is nothing to write. Log 16. -/
  | noSuchAddress (addr : Nat)
  deriving DecidableEq, Repr

/-- Why a step, or the building of a machine, can be refused. -/
inductive Refusal where
  /-- The instruction has no meaning yet. Raised by no arm of `exec`; safe. -/
  | notModelled (mnemonic : String)
  /-- The parameters form no configuration (00_scope R9). Raised by `powerOnParams` alone; safe. -/
  | configuration (why : ConfigProblem)
  deriving DecidableEq, Repr

/-- The machine with configuration `c` at power-on and after its block reset (R41): nothing in the trace,
nothing written to memory, nothing offered by the host. -/
def State.powerOn (c : Config) : State where
  fsm := .uninit
  status := .ok
  misuse := false
  rstLine := true
  active := false
  done := false
  tx := none
  fbRd := none
  seq := Sequencer.idle
  sync := ⟨false, false⟩
  cfg := c
  trace := []
  statuses := []
  mem := []
  inputs := []
  opIndex := 0
  draws := []
  nDraws := 0

/-- The machine right after reset (R41), with the configuration the chip was built with. -/
def State.reset : State := State.powerOn Config.chip

end Sys2Proof.Machine
end

