-- ==== Sys2Proof/Machine/Ops.lean ====
section
/-! DEFINITION. The named operations every meaning is built from: framebuffer memory, the transport primitives
(40_common R102 to R106), the environment's draws, completion and `raise` (30_encoding R76), and the block reset. -/

namespace Sys2Proof.Machine

/-! ### Framebuffer memory (20_memory R50 to R60) -/

/-- What a byte of memory reads as that nothing has written. DESIGN CHOICE, log 8. -/
def Memory.unlisted : Byte := 0

/-- `MemRead(addr, 1)` (20 R52): one byte. -/
def Memory.read : List Host.Cell → Nat → Byte
  | [], _ => Memory.unlisted
  | (a, b) :: rest, addr => if addr = a then b else Memory.read rest addr

/-- One byte written by the host. A byte equal to `Memory.unlisted` has no entry. -/
def Memory.write : List Host.Cell → Nat → Byte → List Host.Cell
  | [], addr, b => if b = Memory.unlisted then [] else [(addr, b)]
  | (a, c) :: rest, addr, b =>
    if addr < a then
      if b = Memory.unlisted then (a, c) :: rest else (addr, b) :: (a, c) :: rest
    else if addr = a then
      if b = Memory.unlisted then rest else (a, b) :: rest
    else (a, c) :: Memory.write rest addr b

/-- The entries lie strictly above `lo - 1`, rise, and none is what an unlisted byte reads as. -/
def Memory.wfFrom : Nat → List Host.Cell → Bool
  | _, [] => true
  | lo, (a, b) :: rest => decide (lo ≤ a) && decide (b ≠ Memory.unlisted) && Memory.wfFrom (a + 1) rest

/-- The canonical form of memory: equal memories are equal lists. -/
def Memory.wf (m : List Host.Cell) : Bool := Memory.wfFrom 0 m

/-- Every entry is one of the `2^FB_ABITS` bytes of the space (20 R50). -/
def Memory.within (limit : Nat) (m : List Host.Cell) : Bool := m.all fun c => decide (c.1 < limit)

/-- The framebuffer byte at `addr` as memory stands. -/
def State.memRead (s : State) (addr : Nat) : Byte := Memory.read s.mem addr

/-! ### The trace and the transport primitives (R28, R102 to R104) -/

/-- `Emit(e)` (00_scope R13): the event goes to the end of the trace. -/
def State.emit (s : State) (e : Event) : State := { s with trace := s.trace ++ [e] }

/-- `SetRst(v)` (R102). -/
def State.setRst (s : State) (v : Level) : State := { s.emit (.setRst v) with rstLine := v }

/-- `DelayMs(n)` (R103), whole: the event, then `n` pulses of `ms_tick` that change nothing in the state. -/
def State.delayMs (s : State) (n : Nat) : State := s.emit (.delay n)

/-- `SendCmd(b)` (R104). -/
def State.sendCmd (s : State) (b : Byte) : State := s.emit (.cmd b)

/-- `SendData(b)` (R104). -/
def State.sendData (s : State) (b : Byte) : State := s.emit (.data b)

/-- `SendData` of each byte of a list, in order (R12). -/
def State.sendBytes (s : State) : List Byte → State
  | [] => s
  | b :: bs => (s.sendData b).sendBytes bs

/-- `SendSeq(S)` (R105). -/
def State.sendSeq (s : State) : List CmdEntry → State
  | [] => s
  | e :: es => ((s.sendCmd e.cmd).sendBytes e.data).sendSeq es

/-- `ResetPulse()` (R106). -/
def State.resetPulse (s : State) : State :=
  (((s.setRst false).delayMs s.cfg.tRstLowMs).setRst true).delayMs s.cfg.tRstHighMs

/-! ### The environment's draws (R31, R101) -/

/-- The draw `d[j]`, counted from the next one (R101): the environment's list where it has a bit for it, a free
value past its end. -/
def State.drawAt (s : State) (j : Nat) : Level :=
  (s.draws[s.nDraws + j]?).getD (Config.busyDraw (s.nDraws + j))

/-! ### State writes, completion and errors -/

/-- `SetState(X)` (R108): `if legal: reg.STATE <- X`. -/
def State.setState (s : State) (x : Fsm) : State := if s.seq.legal then { s with fsm := x } else s

/-- The completion of an accepted word with status `st` (30 R76): the one operation every word ends in, be it at
the end of its rule (`OK`) or at a `raise`. Events and state writes already made stay; `done` is pulsed;
`reg.ACTIVE` falls; nothing of the hidden sequencer state stays (R36, 60 R203). -/
def State.complete (s : State) (st : Status) : State :=
  { s with status := st, statuses := s.statuses ++ [st], done := true, active := false, seq := Sequencer.idle }

/-- `raise S` (30 R76), the block's only way to take an error: it transfers control nowhere (60 R208). -/
def State.raise (s : State) (st : Status) : State := s.complete st

/-- The block reset (70 R240, R241): every register, port and hidden field takes its reset value of R41. The
trace, the stores and framebuffer memory stay, and so does what the environment and the observer hold. Log 14. -/
def State.blockReset (s : State) : State :=
  { State.powerOn s.cfg with
    trace := s.trace, statuses := s.statuses, mem := s.mem, inputs := s.inputs, opIndex := s.opIndex,
    draws := s.draws, nDraws := s.nDraws }

/-- The machine built with the parameters `p`: refused by name where they form no configuration (00_scope R9,
60 R217), at power-on otherwise. -/
def powerOnParams (p : Params) : Host.Outcome State Fault Refusal :=
  match Config.ofParams p with
  | .error why => .refused (.configuration why)
  | .ok c => .next (State.powerOn c)

end Sys2Proof.Machine
end

