-- ==== Sys2Proof/Machine/Flags.lean ====
section
/-! DEFINITION. The flags: the codes of `reg.STATE` and `reg.STATUS` (10 R22, 30 R75), the legality table
(40 R107) and the misuse flag (40 R108). The block has no condition codes (10 R39). -/

namespace Sys2Proof.Machine

/-- The code of a state in `reg.STATE` (10 R22). -/
def Fsm.code : Fsm → BitVec 3
  | .uninit => 0
  | .awaitLut => 1
  | .ready => 2
  | .busy => 3
  | .asleep => 4

/-- The state of a code; the codes 5, 6 and 7 are refused (10 R40). -/
def Fsm.ofCode (c : BitVec 3) : Option Fsm :=
  if c = 0 then some .uninit
  else if c = 1 then some .awaitLut
  else if c = 2 then some .ready
  else if c = 3 then some .busy
  else if c = 4 then some .asleep
  else none

/-- The code of a status in `reg.STATUS` (30 R75). -/
def Status.code : Status → BitVec 2
  | .ok => 0
  | .timeout => 1
  | .badlen => 2
  | .illegal => 3

/-- `Legal(op, STATE)`, the table of 40 R107. -/
def legal : Instr → Fsm → Bool
  | .init, _ => true
  | .reset, _ => true
  | .setlut, f => f == .awaitLut
  | .display _, f => f == .ready
  | .clear, f => f == .ready
  | .sleep, f => f == .ready
  | .waitidle, _ => true

/-- The legality step of the dispatch (30 R78): `legal <- Legal(op, reg.STATE)`, and `reg.MISUSE <- 1` where it
is false (40 R108), before the operation's first event. -/
def State.checkLegal (s : State) (i : Instr) : State :=
  let l := legal i s.fsm
  { s with misuse := s.misuse || !l, seq := { s.seq with legal := l } }

end Sys2Proof.Machine
end

