-- ==== Sys2Proof/Machine/BusySynchronizer.lean ====
section
/-! DEFINITION. busy_synchronizer: the synchroniser, the bounded busy-line wait and WAITIDLE (43 R150 to R155). -/

namespace Sys2Proof.Machine

/-- One clock edge at the synchroniser with the busy line at level `v` (R150). -/
def State.clockSync (s : State) (v : Level) : State := { s with sync := ⟨v, s.sync.ff1⟩ }

/-- `DrawBusy()` (10 R31): the environment's next bit passes through the two flip-flops, and the second is
read. Log 6. -/
def State.drawBusy (s : State) : Level × State :=
  let d := s.drawAt 0
  let s := (s.clockSync d).clockSync d
  (s.sync.ff2, { s with nDraws := s.nDraws + 1 })

/-- One poll: `v <- DrawBusy(); Emit(Poll(v))` (R151). -/
def State.pollBusy (s : State) : Level × State :=
  let r := s.drawBusy
  (r.1, r.2.emit (.poll r.1))

/-- The loop of R151 with `n` polls left of `MAX_POLLS`: `true` at the first poll that reads ready, `false` when
the last one does not; one delay between two polls. -/
def State.waitLoop (s : State) : Nat → Bool × State
  | 0 => (false, s)
  | n + 1 =>
    let r := s.pollBusy
    if r.1 = s.cfg.busyReadyLevel then (true, r.2)
    else if n = 0 then (false, r.2)
    else (r.2.delayMs s.cfg.pollDelayMs).waitLoop n

/-- `WaitUntilIdle()` (R151). -/
def State.waitUntilIdle (s : State) : Bool × State := s.waitLoop s.cfg.maxPolls

/-- WAITIDLE (R155) after its wait. -/
def State.afterIdleWait (s : State) (ok : Bool) : State :=
  if !ok then s.raise .timeout
  else if s.fsm = .busy then (s.setState .ready).complete .ok
  else s.complete .ok

/-- WAITIDLE (R155). -/
def execWaitidle (s : State) : Host.Outcome State Fault Refusal :=
  let r := (s.checkLegal .waitidle).waitUntilIdle
  .next (r.2.afterIdleWait r.1)

end Sys2Proof.Machine
end

