-- ==== Sys2Proof/Machine/Operands.lean ====
section
/-! DEFINITION. The operands: `inv` from the word, `base` and `len` from the side ports (30 R72, R73), the operand
check of DISPLAY (44 R173), and the acceptance that latches them (30 R78). -/

namespace Sys2Proof.Machine

/-- What a port of `bits` wires carries of `v`, zero-extended to a natural number (30 R73). Log 4. -/
def portValue (bits v : Nat) : Nat := v % 2 ^ bits

/-- `Px(b, inv)` (44 R171): the byte as stored, or its 8-bit complement. -/
def px (b : Byte) (inv : Bool) : Byte := if inv then ~~~b else b

/-- The operand check of DISPLAY (44 R173): the latched length is `FB_LEN` and the buffer ends inside the
`2^FB_ABITS` bytes, so no address wraps (20 R57). -/
def State.operandsFit (s : State) : Bool :=
  decide (s.seq.len = s.cfg.fbLen) && decide (s.seq.base + s.cfg.fbLen ≤ 2 ^ s.cfg.fbAbits)

/-- The frame byte of index `i` of a DISPLAY: `Px(MemRead(base + i, 1), inv)` (44 R171). -/
def State.frameByte (s : State) (inv : Bool) (i : Nat) : Byte := px (s.memRead (s.seq.base + i)) inv

/-- The acceptance of a host word (10 R27, 30 R78): `reg.ACTIVE <- 1`, and the word and the side ports are
latched. The host's list loses the word, and its index moves on (10 R21). -/
def State.accept (s : State) (op : HostOp) (rest : List Input) : State :=
  { s with
    active := true
    done := false
    inputs := rest
    opIndex := s.opIndex + 1
    seq := { Sequencer.idle with
      word := op.word
      base := portValue s.cfg.fbAbits op.base
      len := portValue s.cfg.lenBits op.len } }

end Sys2Proof.Machine
end

