-- ==== Sys2Proof/Machine/FramebufferSerializer.lean ====
section
/-! DEFINITION. framebuffer_serializer: SendFrame, DISPLAY and CLEAR (44 R170 to R175). -/

namespace Sys2Proof.Machine

/-- `SendFrame(src)` (R170). The bytes come from `src`, one for each index below `FB_LEN`, in ascending order
(20 R53). -/
def State.sendFrame (s : State) (src : Nat → Byte) : Bool × State :=
  let s := s.sendCmd s.cfg.dtmCmd
  let s := s.sendBytes ((List.range s.cfg.fbLen).map src)
  let s := s.sendCmd s.cfg.refreshCmd
  s.waitUntilIdle

/-- DISPLAY and CLEAR (R171, R174) after their refresh wait. -/
def State.afterFrame (s : State) (ok : Bool) : State :=
  if !ok then s.raise .timeout else (s.setState .ready).complete .ok

/-- The sequence DISPLAY and CLEAR share (R171, R174), from the bytes of the frame. -/
def State.showFrame (s : State) (src : Nat → Byte) : State :=
  let r := (s.setState .busy).sendFrame src
  r.2.afterFrame r.1

/-- DISPLAY (R171): the operand check of R173 stands before legality (30 R78); the frame is read from memory as
it stands (20 R60). -/
def execDisplay (inv : Bool) (s : State) : Host.Outcome State Fault Refusal :=
  .next (if s.operandsFit then (s.checkLegal (.display inv)).showFrame (s.frameByte inv) else s.raise .badlen)

/-- CLEAR (R174): no memory is read and no length is checked. -/
def execClear (s : State) : Host.Outcome State Fault Refusal :=
  .next ((s.checkLegal .clear).showFrame fun _ => s.cfg.clearByte)

end Sys2Proof.Machine
end

