-- ==== Sys2Proof/Machine/LutLoader.lean ====
section
/-! DEFINITION. lut_loader: LoadLut and SETLUT (42 R140 to R142). -/

namespace Sys2Proof.Machine

/-- `LoadLut()` (R140): one LUT command, then the LUT bytes in order. -/
def State.loadLut (s : State) : State := (s.sendCmd s.cfg.lutCmd).sendBytes s.cfg.lut

/-- SETLUT (R141). -/
def execSetlut (s : State) : Host.Outcome State Fault Refusal :=
  .next (((s.checkLegal .setlut).loadLut.setState .ready).complete .ok)

end Sys2Proof.Machine
end

