-- ==== Sys2Proof/Machine/InitReset.lean ====
section
/-! DEFINITION. INIT and RESET (41 R120 to R125). -/

namespace Sys2Proof.Machine

/-- INIT (R120) after its post-reset wait. -/
def State.afterInitWait (s : State) (ok : Bool) : State :=
  if !ok then (s.setState .uninit).raise .timeout
  else (((s.sendSeq s.cfg.initCfg).loadLut).setState .ready).complete .ok

/-- INIT (R120). -/
def execInit (s : State) : Host.Outcome State Fault Refusal :=
  let r := (((s.checkLegal .init).setState .awaitLut).resetPulse).waitUntilIdle
  .next (r.2.afterInitWait r.1)

/-- RESET (R124). -/
def execReset (s : State) : Host.Outcome State Fault Refusal :=
  .next ((((s.checkLegal .reset).setState .uninit).resetPulse).complete .ok)

end Sys2Proof.Machine
end

