-- ==== Sys2Proof/Machine/Sleep.lean ====
section
/-! DEFINITION. SLEEP (45 R190, R191). -/

namespace Sys2Proof.Machine

/-- SLEEP (R190). -/
def execSleep (s : State) : Host.Outcome State Fault Refusal :=
  .next ((((s.checkLegal .sleep).sendSeq s.cfg.sleepSeq).setState .asleep).complete .ok)

end Sys2Proof.Machine
end

