-- ==== Sys2Proof/Machine/Dispatch.lean ====
section
/-! DEFINITION. The meaning of each instruction: the whole operation of an accepted word (40 R100, R101). -/

namespace Sys2Proof.Machine

def exec (i : Instr) (s : State) : Host.Outcome State Fault Refusal :=
  match i with
  | .init => Sys2Proof.Machine.execInit s
  | .reset => Sys2Proof.Machine.execReset s
  | .setlut => Sys2Proof.Machine.execSetlut s
  | .display inv => Sys2Proof.Machine.execDisplay inv s
  | .clear => Sys2Proof.Machine.execClear s
  | .sleep => Sys2Proof.Machine.execSleep s
  | .waitidle => Sys2Proof.Machine.execWaitidle s

end Sys2Proof.Machine
end

