-- ==== Sys2Proof/Decode.lean ====
section
/-! DEFINITION. The decoder of host words, total over all 256 (30_encoding R70 to R79), and the encoder. -/

namespace Sys2Proof

/-- Why a word is none of the eight legal words (R77). -/
inductive IllegalWord where
  /-- `RSV ≠ 0`. -/
  | reservedBits
  /-- `OP = 000`. -/
  | opZero
  /-- `INV = 1` with `OP ≠ 100`. -/
  | invOutsideDisplay
  deriving DecidableEq, Repr

/-- What a word decodes to. -/
inductive Decoded where
  | instr (i : Instr)
  | illegal (why : IllegalWord)
  deriving DecidableEq, Repr

/-- `OP = w[2:0]` (R70). -/
def opField (w : Byte) : BitVec 3 := w.extractLsb' 0 3

/-- `INV = w[3]` (R70). -/
def invField (w : Byte) : Bool := w.getLsbD 3

/-- `RSV = w[7:4]` (R70). -/
def rsvField (w : Byte) : BitVec 4 := w.extractLsb' 4 4

/-- The decoder (R71, R72, R77). DISPLAY is the only operation with an INV bit. -/
def decode (w : Byte) : Decoded :=
  if rsvField w ≠ 0 then .illegal .reservedBits
  else if opField w = 0b000 then .illegal .opZero
  else if opField w = 0b100 then .instr (.display (invField w))
  else if invField w then .illegal .invOutsideDisplay
  else if opField w = 0b001 then .instr .init
  else if opField w = 0b010 then .instr .reset
  else if opField w = 0b011 then .instr .setlut
  else if opField w = 0b101 then .instr .clear
  else if opField w = 0b110 then .instr .sleep
  else .instr .waitidle

/-- `OP` of an operation, from R71's table. -/
def Instr.op : Instr → BitVec 3
  | .init => 0b001
  | .reset => 0b010
  | .setlut => 0b011
  | .display _ => 0b100
  | .clear => 0b101
  | .sleep => 0b110
  | .waitidle => 0b111

/-- `INV` of an operation: 0 in every operation but DISPLAY (R72). -/
def Instr.inv : Instr → Bool
  | .display inv => inv
  | .init | .reset | .setlut | .clear | .sleep | .waitidle => false

/-- The word of an operation: `RSV` zero, then `INV`, then `OP` (R70). -/
def encode (i : Instr) : Byte := (0#4 ++ BitVec.ofBool i.inv) ++ i.op

/-- The instruction the decoder reads from a word of `nbits` bits, numbered as spec/opcode_table.json numbers
them. Every word is one byte (R79), so bits above `nbits` are 0 and more than 8 bits are no word. -/
def decodeTableWord (nbits w : Nat) : Option Instr :=
  if nbits ≤ 8 then
    match decode (BitVec.ofNat 8 (w % 2 ^ nbits)) with
    | .instr i => some i
    | .illegal _ => none
  else none

end Sys2Proof
end

