-- ==== Sys2Proof/Machine/Sequencer.lean ====
section
/-! DEFINITION. The sequencer move by move (10 R35, R36; 40 R100): the same operations as the meanings of `exec`,
one event at a time, over the hidden state. A block reset can land between any two moves (70 R241). A move offers
a transaction, or sees it taken, or requests a framebuffer byte, or gets it, or counts one millisecond, or makes
one event of the reset line or of a poll, or ends a phase other than a wait. Logs 9, 10, 13 and 21. -/

namespace Sys2Proof.Machine

/-- The event of a transaction the transport takes (10 R35). -/
def Tx.event : Tx → Event
  | .cmd b => .cmd b
  | .data b => .data b

/-- The transactions of `SendSeq(S)`, in order (40 R105). -/
def seqTransactions (l : List CmdEntry) : List Tx := l.flatMap fun e => .cmd e.cmd :: e.data.map .data

/-- The transactions of `LoadLut()`, in order (42 R140). -/
def lutTransactions (c : Config) : List Tx := .cmd c.lutCmd :: c.lut.map .data

/-- Enter a phase at its start; the poll counter starts anew (60 R212). -/
def State.enter (s : State) (p : Phase) : State := { s with seq := { s.seq with phase := p, index := 0, k := 0 } }

/-- Go to a phase of the same wait: index and poll counter stay. -/
def State.goto (s : State) (p : Phase) : State := { s with seq := { s.seq with phase := p } }

/-- The next index of the phase. -/
def State.advance (s : State) : State := { s with seq := { s.seq with index := s.seq.index + 1 } }

/-- `tx_valid = 1` with a transaction (10 R35). -/
def State.offer (s : State) (t : Tx) : State := { s with tx := some t }

/-- `tx_ready = 1`: the offered transaction is taken, which is its event (10 R35, 40 R104). -/
def State.take (s : State) (t : Tx) : State := ({ s with tx := none }.emit t.event).advance

/-- `fb_rd_en = 1` with an address (10 R35, 20 R59). -/
def State.request (s : State) (addr : Nat) : State := { s with fbRd := some addr }

/-- `fb_rd_valid = 1`: the byte of the last request is there, and is offered as `Px` of it (44 R171). -/
def State.readArrives (s : State) (addr : Nat) : State :=
  { s with fbRd := none }.offer (.data (px (s.memRead addr) (invField s.seq.word)))

/-- `DelayMs(n)` begins (40 R103): its event, and `n` pulses of `ms_tick` to count. -/
def State.startDelay (s : State) (n : Nat) : State :=
  let s := s.delayMs n
  { s with seq := { s.seq with ms := n } }

/-- One pulse of `ms_tick` in a delay (60 R212). -/
def State.tick (s : State) : State := { s with seq := { s.seq with ms := s.seq.ms - 1 } }

/-- After the reset pulse: INIT waits (41 R120), RESET is complete (41 R124); no other operation pulses. -/
def State.afterPulse (s : State) : Instr → State
  | .init => s.enter .poll
  | .reset | .setlut | .display _ | .clear | .sleep | .waitidle => s.complete .ok

/-- After a wait (43 R154): INIT goes on to its configuration, the others end; RESET, SETLUT and SLEEP never wait. -/
def State.afterWait (s : State) (ok : Bool) : Instr → State
  | .init => if ok then s.enter .config else (s.setState .uninit).raise .timeout
  | .display _ | .clear => s.afterFrame ok
  | .waitidle => s.afterIdleWait ok
  | .reset | .setlut | .sleep => s.complete .ok

/-- A poll (43 R151): count it, then end the wait or go on to the delay. DESIGN CHOICE, log 21: the poll that ends a
wait, and what follows the wait, are one move, so no block reset falls between that `Poll` event and `done`. -/
def State.movePoll (s : State) (i : Instr) : State :=
  let r := s.pollBusy
  let t : State := { r.2 with seq := { r.2.seq with k := r.2.seq.k + 1 } }
  if r.1 = t.cfg.busyReadyLevel then t.afterWait true i
  else if t.seq.k = t.cfg.maxPolls then t.afterWait false i
  else t.goto .gap

/-- The reset pulse by index (40 R106). -/
def State.movePulse (s : State) (i : Instr) : State :=
  match s.seq.index with
  | 0 => (s.setRst false).advance
  | 1 => (s.startDelay s.cfg.tRstLowMs).advance
  | 2 => (s.setRst true).advance
  | 3 => (s.startDelay s.cfg.tRstHighMs).advance
  | _ + 4 => s.afterPulse i

/-- A fixed list of transactions by index; `fin` is where the phase leads at its end. -/
def State.moveList (s : State) (l : List Tx) (fin : State) : State :=
  match l[s.seq.index]? with
  | some t => s.offer t
  | none => fin

/-- The data byte of index `j` of a frame: DISPLAY requests it, CLEAR has it (44 R171, R174); no other operation
sends a frame. -/
def State.moveFrameByte (s : State) (j : Nat) : Instr → State
  | .display _ => s.request (s.seq.base + j)
  | .clear => s.offer (.data s.cfg.clearByte)
  | .init | .reset | .setlut | .sleep | .waitidle => s.complete .ok

/-- SendFrame by index (44 R170). -/
def State.moveFrame (s : State) (i : Instr) : State :=
  match s.seq.index with
  | 0 => s.offer (.cmd s.cfg.dtmCmd)
  | j + 1 =>
    if j < s.cfg.fbLen then s.moveFrameByte j i
    else if j = s.cfg.fbLen then s.offer (.cmd s.cfg.refreshCmd)
    else s.enter .poll

/-- The next move of the phase, with no transaction offered, no byte requested and no delay in progress. An
active block is in no idle phase. -/
def State.movePhase (s : State) (i : Instr) : State :=
  match s.seq.phase with
  | .idle => s.complete .ok
  | .pulse => s.movePulse i
  | .poll => s.movePoll i
  | .gap => (s.startDelay s.cfg.pollDelayMs).goto .poll
  | .config => s.moveList (seqTransactions s.cfg.initCfg) (s.enter .lut)
  | .lut => s.moveList (lutTransactions s.cfg) ((s.setState .ready).complete .ok)
  | .frame => s.moveFrame i
  | .sleep => s.moveList (seqTransactions s.cfg.sleepSeq) ((s.setState .asleep).complete .ok)

/-- One move of an active block. -/
def State.move (s : State) : State :=
  match s.tx with
  | some t => s.take t
  | none =>
    match s.fbRd with
    | some addr => s.readArrives addr
    | none =>
      if s.seq.ms ≠ 0 then s.tick
      else
        match decode s.seq.word with
        | .instr i => s.movePhase i
        | .illegal _ => s.raise .illegal

/-- The dispatch of an accepted legal word up to its first event (30 R78): the operand check, the legality step,
and the state write that stands before the first event. -/
def State.launch (s : State) : Instr → State
  | .init => ((s.checkLegal .init).setState .awaitLut).enter .pulse
  | .reset => ((s.checkLegal .reset).setState .uninit).enter .pulse
  | .setlut => (s.checkLegal .setlut).enter .lut
  | .display inv =>
    if s.operandsFit then ((s.checkLegal (.display inv)).setState .busy).enter .frame else s.raise .badlen
  | .clear => ((s.checkLegal .clear).setState .busy).enter .frame
  | .sleep => (s.checkLegal .sleep).enter .sleep
  | .waitidle => (s.checkLegal .waitidle).enter .poll

/-- Acceptance and dispatch of a host word (30 R78), leaving an active block at its first event; an illegal word
is complete at once (30 R77), and so is a DISPLAY that is rejected (44 R173). DESIGN CHOICE, log 21: no block reset
falls between the acceptance and that completion. -/
def State.start (s : State) (op : HostOp) (rest : List Input) : State :=
  match decode op.word with
  | .instr i => (s.accept op rest).launch i
  | .illegal _ => (s.accept op rest).raise .illegal

/-- Up to `n` moves, none after the operation is complete. -/
def State.moves : Nat → State → State
  | 0, s => s
  | n + 1, s => if s.active then State.moves n s.move else s

/-- A host word cut by a block reset after `n` moves (70 R241). -/
def State.cutWord (s : State) (op : HostOp) (n : Nat) (rest : List Input) : State :=
  (State.moves n (s.start op rest)).blockReset

end Sys2Proof.Machine
end

