-- ==== Sys2Proof/Machine/Run.lean ====
section
/-! DEFINITION. What the block does with each thing the host does (10 R35, 30 R78, 70 R240 to R242). -/

namespace Sys2Proof.Machine

/-- Nothing is offered: the block waits with `op_ready = 1` (70 R242); a `done` pulse is over (10 R35). -/
def State.wait (s : State) : State := { s with done := false }

/-- A host word is accepted and completed (30 R78): an illegal word by `raise ILLEGAL` (30 R77), a legal one by
its instruction. -/
def runWord (s : State) (op : HostOp) (rest : List Input) : Host.Outcome State Fault Refusal :=
  match decode op.word with
  | .instr i => exec i (s.accept op rest)
  | .illegal _ => .next ((s.accept op rest).raise .illegal)

/-- The host writes a byte of framebuffer memory (20 R60), which has the addresses below `2^FB_ABITS` (20 R50). -/
def hostWrite (s : State) (addr : Nat) (b : Byte) (rest : List Input) : Host.Outcome State Fault Refusal :=
  if addr < 2 ^ s.cfg.fbAbits then
    .next { s with inputs := rest, mem := Memory.write s.mem addr b, done := false }
  else .fault (.noSuchAddress addr)

/-- The next thing the host does, at an idle block. -/
def runInput (s : State) : List Input → Host.Outcome State Fault Refusal
  | [] => .next s.wait
  | .word op :: rest => runWord s op rest
  | .wordByMoves op :: rest => .next (s.start op rest)
  | .wordCut op n :: rest => .next (s.cutWord op n rest)
  | .blockReset :: rest => .next { s with inputs := rest }.blockReset
  | .write addr b :: rest => hostWrite s addr b rest

/-- The state with `input` as the very next thing the block meets. -/
def State.withNext (s : State) (input : Input) : State := { s with active := false, inputs := input :: s.inputs }

/-- The word of `nbits` bits `w` as the host offers it, with zeros on the side ports. -/
def tableWord (nbits w : Nat) : HostOp := { word := BitVec.ofNat 8 (w % 2 ^ nbits), base := 0, len := 0 }

end Sys2Proof.Machine
end

