-- ==== Sys2Proof/Machine/Step.lean ====
section
/-! DEFINITION. One step: an idle block meets the next thing its host does, a whole operation at a time, or only its
acceptance and dispatch where the host watches every move (40 R100); an active block makes one move. -/

namespace Sys2Proof.Machine

/-- One step. While an operation is active nothing of the host's list is met (10 R27, 70 R248). -/
def step (s : State) : Host.Outcome State Fault Refusal :=
  if s.active then .next s.move else runInput s s.inputs

/-- The state with the word offered as the next host word, to an idle block, so that the next `step` runs it. -/
def State.withFetchWord (s : State) (nbits w : Nat) : State := s.withNext (.word (tableWord nbits w))

end Sys2Proof.Machine
end

