-- ==== Sys2Proof/Machine/Ports.lean ====
section
/-! DEFINITION. The block's output ports (10 R35, R38), each read off the state, and the projections of a trace. -/

namespace Sys2Proof.Machine

/-- The output ports of 10 R35. A payload whose valid bit is 0 has no value. -/
structure Ports where
  opReady  : Bool
  done     : Bool
  status   : BitVec 2
  fsmState : BitVec 3
  misuse   : Bool
  txValid  : Bool
  txIsData : Option Bool
  txByte   : Option Byte
  rstLine  : Level
  fbRdEn   : Bool
  fbRdAddr : Option Nat
  deriving DecidableEq, Repr

/-- `tx_is_data` of an offered transaction. -/
def Tx.isData : Tx → Bool
  | .cmd _ => false
  | .data _ => true

/-- `tx_byte` of an offered transaction. -/
def Tx.byte : Tx → Byte
  | .cmd b => b
  | .data b => b

/-- What the outside sees of a state (10 R35): `op_ready = NOT reg.ACTIVE`, the registers, and the two
request ports. The host may read `status`, `fsm_state` and `misuse` at any time (10 R38). -/
def State.ports (s : State) : Ports where
  opReady := !s.active
  done := s.done
  status := s.status.code
  fsmState := s.fsm.code
  misuse := s.misuse
  txValid := s.tx.isSome
  txIsData := s.tx.map Tx.isData
  txByte := s.tx.map Tx.byte
  rstLine := s.rstLine
  fbRdEn := s.fbRd.isSome
  fbRdAddr := s.fbRd

/-- Is the event a transaction, a `Cmd` or a `Data`? -/
def Event.isTransaction : Event → Bool
  | .cmd _ => true
  | .data _ => true
  | .setRst _ => false
  | .delay _ => false
  | .poll _ => false

/-- The byte stream of a trace (10 R28): its `Cmd` and `Data` events, in order. -/
def byteStream (t : List Event) : List Event := t.filter Event.isTransaction

/-- The milliseconds of one event: `n` of a `Delay(n)`. -/
def Event.ms : Event → Nat
  | .delay n => n
  | .cmd _ => 0
  | .data _ => 0
  | .setRst _ => 0
  | .poll _ => 0

/-- The time a trace takes, counting only its delays (70 R250). -/
def delayTotal (t : List Event) : Nat := (t.map Event.ms).sum

/-- Is the event a poll? -/
def Event.isPoll : Event → Bool
  | .poll _ => true
  | .cmd _ => false
  | .data _ => false
  | .setRst _ => false
  | .delay _ => false

/-- How many polls a trace holds. -/
def pollCount (t : List Event) : Nat := t.countP Event.isPoll

end Sys2Proof.Machine
end

