-- ==== Sys2Proof/Safety.lean ====
section
/-! DEFINITION. The terms claims use: the event lists of the rules in closed form, when a wait sees ready, the
state each operation ends in, what a safe run is, and the invariant of the machine. -/

namespace Sys2Proof.Machine

/-! ### Event lists in closed form -/

/-- The four events of ResetPulse (40 R106). -/
def pulseEvents (c : Config) : List Event :=
  [.setRst false, .delay c.tRstLowMs, .setRst true, .delay c.tRstHighMs]

/-- The data events of a list of bytes. -/
def dataEvents (bs : List Byte) : List Event := bs.map .data

/-- The events of SendSeq (40 R105): `CFG` of 41 R121 for INIT_CFG. -/
def seqEvents (l : List CmdEntry) : List Event := l.flatMap fun e => .cmd e.cmd :: dataEvents e.data

/-- The events of LoadLut (42 R140). -/
def lutEvents (c : Config) : List Event := .cmd c.lutCmd :: dataEvents c.lut

/-- The transactions of SendFrame (44 R170) for the bytes of a frame. -/
def frameEvents (c : Config) (bytes : List Byte) : List Event :=
  .cmd c.dtmCmd :: dataEvents bytes ++ [.cmd c.refreshCmd]

/-- `[Poll(nR), Delay(POLL_DELAY_MS)]`, `n` times (41 R121). -/
def busyPolls (c : Config) (n : Nat) : List Event :=
  (List.replicate n [Event.poll (!c.busyReadyLevel), .delay c.pollDelayMs]).flatten

/-- `W(k)` of 41 R121: a wait that sees ready at its `k`-th poll. -/
def readyWait (c : Config) (k : Nat) : List Event := busyPolls c (k - 1) ++ [.poll c.busyReadyLevel]

/-- `T` of 41 R121: a wait that gives up. -/
def failedWait (c : Config) : List Event := busyPolls c (c.maxPolls - 1) ++ [.poll (!c.busyReadyLevel)]

/-- The bytes of the frame a DISPLAY sends (44 R171). -/
def frameBytes (s : State) (inv : Bool) : List Byte :=
  (List.range s.cfg.fbLen).map fun i =>
    if inv then ~~~(s.memRead (s.seq.base + i)) else s.memRead (s.seq.base + i)

/-! ### What a wait meets -/

/-- The next wait sees ready at its `k`-th poll (41 R121, 43 R152). -/
abbrev ReadyAtPoll (s : State) (k : Nat) : Prop :=
  1 ≤ k ∧ k ≤ s.cfg.maxPolls ∧ (∀ j < k - 1, s.drawAt j ≠ s.cfg.busyReadyLevel) ∧
    s.drawAt (k - 1) = s.cfg.busyReadyLevel

/-- The next wait sees no ready in `MAX_POLLS` polls (60 R201). -/
abbrev NeverReady (s : State) : Prop := ∀ j < s.cfg.maxPolls, s.drawAt j ≠ s.cfg.busyReadyLevel

/-- The operand check of DISPLAY passes (44 R173). -/
abbrev OperandsFit (s : State) : Prop :=
  s.seq.len = s.cfg.fbLen ∧ s.seq.base + s.cfg.fbLen ≤ 2 ^ s.cfg.fbAbits

/-! ### The end of an operation -/

/-- The state a legal operation leaves, the last column of the table of 40 R107, from the state before and the
status. -/
def legalEnd : Instr → Fsm → Status → Fsm
  | .init, _, st => if st = .ok then .ready else .uninit
  | .reset, _, _ => .uninit
  | .setlut, _, _ => .ready
  | .display _, f, st => if st = .ok then .ready else if st = .timeout then .busy else f
  | .clear, _, st => if st = .ok then .ready else .busy
  | .sleep, _, _ => .asleep
  | .waitidle, f, st => if f = .busy ∧ st = .ok then .ready else f

/-! ### Safe runs -/

/-- A claim about the panel may be made of a run that ends in `s` (40 R109): no operation of it was a misuse. The
misuse flag is the spec's model fault; the block itself goes on, so `exec` does. Log 12. -/
abbrev PanelClaimsHold (s : State) : Prop := s.misuse = false

/-- The next step is a block reset (70 R240, R241). -/
def MeetsBlockReset (s : State) : Prop :=
  s.active = false ∧ ((∃ rest, s.inputs = .blockReset :: rest) ∨ ∃ op n rest, s.inputs = .wordCut op n :: rest)

/-! ### The invariant -/

/-- The phases an operation goes through (files 41 to 45). -/
def runsPhase : Instr → Phase → Bool
  | .init, p => p == .pulse || p == .poll || p == .gap || p == .config || p == .lut
  | .reset, p => p == .pulse
  | .setlut, p => p == .lut
  | .display _, p => p == .frame || p == .poll || p == .gap
  | .clear, p => p == .frame || p == .poll || p == .gap
  | .sleep, p => p == .sleep
  | .waitidle, p => p == .poll || p == .gap

/-- The phases in which a transaction can be offered or a byte requested. -/
def sendsPhase (p : Phase) : Bool := p == .config || p == .lut || p == .frame || p == .sleep

/-- Framebuffer memory is canonical and holds bytes of its address space only (20 R50). -/
def MemoryInv (s : State) : Prop :=
  Memory.wf s.mem = true ∧ Memory.within (2 ^ s.cfg.fbAbits) s.mem = true

/-- Between operations: the sequencer idle, nothing offered or requested, the reset line high, and no
AwaitingLutLoad (42 R142). -/
def IdleInv (s : State) : Prop :=
  s.seq = Sequencer.idle ∧ s.tx = none ∧ s.fbRd = none ∧ s.fsm ≠ .awaitLut ∧ s.rstLine = true

/-- While an operation is active: the latched word is a legal one, in one of its phases; only INIT is in
AwaitingLutLoad (42 R142), and is legal; the reset line is low only inside the pulse (10 R26); one port at a time
is in use, by a phase that sends (20 R61); a framebuffer read is one of DISPLAY's, inside its buffer, which is
inside the address space (20 R51, R57); a wait has polls left (43 R151). -/
def ActiveInv (s : State) : Prop :=
  s.done = false ∧
  (∃ i, decode s.seq.word = .instr i ∧ runsPhase i s.seq.phase = true ∧
    (i = .init → s.seq.legal = true) ∧ (i ≠ .init → s.fsm ≠ .awaitLut) ∧
    ((∃ inv, i = .display inv) → OperandsFit s) ∧
    (∀ a, s.fbRd = some a → s.seq.phase = .frame ∧ (∃ inv, i = .display inv) ∧
      s.seq.base ≤ a ∧ a < s.seq.base + s.cfg.fbLen)) ∧
  (s.rstLine = false → s.seq.phase = .pulse ∧ (s.seq.index = 1 ∨ s.seq.index = 2)) ∧
  (s.tx ≠ none → s.fbRd = none ∧ sendsPhase s.seq.phase = true) ∧
  (s.seq.phase = .poll ∨ s.seq.phase = .gap → s.seq.k < s.cfg.maxPolls)

/-- The invariant of the machine. -/
def MachineInv (s : State) : Prop :=
  MemoryInv s ∧ (s.active = false → IdleInv s) ∧ (s.active = true → ActiveInv s)

/-! ### Whole event-level runs -/

/-- The framebuffer addresses requested in up to `n` moves (10 R35, 20 R56), in order. -/
def requests : Nat → State → List Nat
  | 0, _ => []
  | n + 1, s =>
    if s.active then
      match s.tx, s.fbRd, s.move.fbRd with
      | none, none, some a => a :: requests n s.move
      | _, _, _ => requests n s.move
    else []

end Sys2Proof.Machine
end

