-- ==== Sys2Proof/Certificates/Slice0/Obligations.lean ====
section
/-! DEFINITION. What is stated of the machine. Each docstring names the rule of spec/ it formalises. -/

open Sys2Proof Sys2Proof.Machine

/-! ### Encoding -/

/-- 30 R70, R71, R72: a word decodes to an operation exactly when it is that operation's word, INV bit included. -/
def Obligations.DecodeReadsExactlyTheEncodedWord : Prop :=
  ∀ (w : Byte) (i : Instr), decode w = .instr i ↔ w = encode i

/-- 30 R71: the words of the table, written out. -/
def Obligations.TableWordsDecode : Prop :=
  decode 0b00000001 = .instr .init ∧ decode 0b00000010 = .instr .reset ∧ decode 0b00000011 = .instr .setlut ∧
  decode 0b00000100 = .instr (.display false) ∧ decode 0b00001100 = .instr (.display true) ∧
  decode 0b00000101 = .instr .clear ∧ decode 0b00000110 = .instr .sleep ∧ decode 0b00000111 = .instr .waitidle ∧
  (∃ why, decode 0b00000000 = .illegal why)

/-- 30 R77: the legal words are exactly the eight; the others are illegal for one of three reasons; an illegal word
is accepted and completes with ILLEGAL, and changes nothing else. `y` and `q`: what the flip-flops and the hidden
sequencer state hold then is not said (10 R36, R37). -/
def Obligations.IllegalWordCompletesWithoutEffect : Prop :=
  (∀ w : Byte, (∃ i, decode w = .instr i) ↔
    w ∈ ([0x01, 0x02, 0x03, 0x04, 0x05, 0x06, 0x07, 0x0C] : List Byte)) ∧
  (∀ w : Byte, (∃ why, decode w = .illegal why) ↔
    w.extractLsb' 0 3 = 0 ∨ w.extractLsb' 4 4 ≠ 0 ∨ (w.getLsbD 3 = true ∧ w.extractLsb' 0 3 ≠ 0b100)) ∧
  ∀ (s : State) (op : HostOp) (rest : List Input), s.active = false → s.inputs = .word op :: rest →
    op.word ∉ ([0x01, 0x02, 0x03, 0x04, 0x05, 0x06, 0x07, 0x0C] : List Byte) →
    ∃ y q, step s = .next { s with
      inputs := rest, opIndex := s.opIndex + 1, status := .illegal, statuses := s.statuses ++ [.illegal],
      done := true, active := false, sync := y, seq := q }

/-- 10 R22, R40 and 30 R75: the codes of `reg.STATE` and `reg.STATUS`; the state codes 5, 6 and 7 name no state. -/
def Obligations.RegisterCodes : Prop :=
  (Fsm.code .uninit = 0 ∧ Fsm.code .awaitLut = 1 ∧ Fsm.code .ready = 2 ∧ Fsm.code .busy = 3 ∧
    Fsm.code .asleep = 4) ∧
  (∀ f : Fsm, Fsm.ofCode f.code = some f) ∧ (∀ c : BitVec 3, Fsm.ofCode c = none ↔ 5 ≤ c.toNat) ∧
  (Status.code .ok = 0 ∧ Status.code .timeout = 1 ∧ Status.code .badlen = 2 ∧ Status.code .illegal = 3)

/-! ### Configuration, reset and the step -/

/-- 00_scope R9: a configuration that fails any of its checks is refused. -/
def Obligations.IllFormedConfigurationIsRefused : Prop :=
  ∀ p : Params,
    ¬ (1 ≤ p.width ∧ 1 ≤ p.height ∧ p.width * p.height % 8 = 0 ∧ 1 ≤ p.lutLen ∧ p.lut.length = p.lutLen ∧
      1 ≤ p.maxPolls ∧ (p.clearByte = 0x00 ∨ p.clearByte = 0xFF) ∧ p.sleepSeq ≠ [] ∧
      p.width * p.height / 8 < 2 ^ p.lenBits) →
    ∃ why, powerOnParams p = .refused (.configuration why)

/-- 00_scope R8, R9: parameters that pass every check of R9, and have an address bit as R8's table asks (log 2, the
model's reading), power on. -/
def Obligations.WellFormedConfigurationPowersOn : Prop :=
  ∀ p : Params,
    1 ≤ p.width → 1 ≤ p.height → p.width * p.height % 8 = 0 → 1 ≤ p.lutLen → p.lut.length = p.lutLen →
    1 ≤ p.maxPolls → (p.clearByte = 0x00 ∨ p.clearByte = 0xFF) → p.sleepSeq ≠ [] →
    p.width * p.height / 8 < 2 ^ p.lenBits → 1 ≤ p.fbAbits →
    ∃ c : Config, c.toParams = p ∧ powerOnParams p = .next (State.powerOn c)

/-- 10 R41: what the block reset leaves in every register and port; it leaves the trace, the stores and the
framebuffer memory alone, and the trace is empty at power-on. Nothing is said of the contents R41 calls unspecified. -/
def Obligations.BlockResetTakesRegistersToResetValues : Prop :=
  (∀ c : Config, (State.powerOn c).fsm = .uninit ∧ (State.powerOn c).rstLine = true ∧
    (State.powerOn c).ports.opReady = true ∧ (State.powerOn c).trace = [] ∧ (State.powerOn c).cfg = c) ∧
  ∀ (s : State) (rest : List Input), s.active = false → s.inputs = .blockReset :: rest →
    ∃ t, step s = .next t ∧ t.fsm = .uninit ∧ t.status = .ok ∧ t.misuse = false ∧ t.rstLine = true ∧
      t.active = false ∧ t.ports.opReady = true ∧ t.done = false ∧ t.ports.txValid = false ∧
      t.ports.fbRdEn = false ∧ t.seq.phase = .idle ∧ t.trace = s.trace ∧ t.cfg = s.cfg ∧
      ∀ a, t.memRead a = s.memRead a

/-- 30 R78, 10 R27, R35, 30 R73, 70 R242: an idle block that is offered a word runs the decoded instruction on the
state in which the word and the ports are latched and `reg.ACTIVE` is 1; offered nothing, it waits. The model's own: a
port carries a number modulo its width (log 4), the rest of the hidden state starts at zero (log 7), a `done` pulse lasts
until the acceptance or the waiting step (log 17), the flip-flops hold between polls (log 6). -/
def Obligations.StepRunsTheDecodedInstruction : Prop :=
  (∀ (s : State) (op : HostOp) (rest : List Input) (i : Instr), s.active = false → s.inputs = .word op :: rest →
    decode op.word = .instr i →
    step s = exec i { s with
      active := true, done := false, inputs := rest, opIndex := s.opIndex + 1,
      seq := { Sequencer.idle with
        word := op.word, base := op.base % 2 ^ s.cfg.fbAbits, len := op.len % 2 ^ s.cfg.lenBits } }) ∧
  ∀ s : State, s.active = false → s.inputs = [] → step s = .next { s with done := false }

/-- 30 R73: the ports are latched zero-extended, and every operation but DISPLAY ignores them. -/
def Obligations.OperandsAreZeroExtendedAndOnlyDisplayUsesThem : Prop :=
  (∀ (s : State) (op : HostOp) (rest : List Input), op.base < 2 ^ s.cfg.fbAbits → op.len < 2 ^ s.cfg.lenBits →
    (s.accept op rest).seq.base = op.base ∧ (s.accept op rest).seq.len = op.len) ∧
  ∀ (i : Instr) (s : State) (b l : Nat), (∀ inv, i ≠ .display inv) →
    exec i { s with seq := { s.seq with base := b, len := l } } = exec i s

/-- 20 R50, R60: a byte the host writes reads back, every other byte stays, nothing else changes. The model's own:
outside the `2^FB_ABITS` bytes it faults (log 16), the write ends a `done` pulse (log 17), the flip-flops hold (log 6). -/
def Obligations.HostWritesFramebufferMemory : Prop :=
  ∀ (s : State) (a : Nat) (b : Byte) (rest : List Input), MemoryInv s → s.active = false →
    s.inputs = .write a b :: rest →
    (a < 2 ^ s.cfg.fbAbits → ∃ t, step s = .next t ∧ t.memRead a = b ∧ (∀ x, x ≠ a → t.memRead x = s.memRead x) ∧
      t = { s with inputs := rest, done := false, mem := t.mem }) ∧
    (2 ^ s.cfg.fbAbits ≤ a → step s = .fault (.noSuchAddress a))

/-- 10 R36: what an earlier operation left in the hidden sequencer state has no effect on the next word. -/
def Obligations.LeftoverSequencerStateIsUnobservable : Prop :=
  ∀ (s : State) (op : HostOp) (n : Nat) (rest : List Input) (q : Sequencer), s.active = false →
    (s.inputs = .word op :: rest ∨ s.inputs = .wordByMoves op :: rest ∨ s.inputs = .wordCut op n :: rest) → step { s with seq := q } = step s

/-! ### Shared procedures -/

/-- 40 R105: SendSeq emits one event for each command and each data byte, no poll and no delay. `y`: what the
flip-flops hold then is not said (10 R37). -/
def Obligations.SendSeqEmitsOnlyTransactions : Prop :=
  ∀ (s : State) (l : List CmdEntry), ∃ (E : List Event) (y : Synchronizer),
    s.sendSeq l = { s with trace := s.trace ++ E, sync := y } ∧
    E = l.flatMap (fun e => Event.cmd e.cmd :: e.data.map Event.data) ∧
    E.length = l.length + (l.map fun e => e.data.length).sum ∧ (∀ e ∈ E, e.isTransaction = true)

/-- 44 R170: SendFrame emits `FB_LEN + 2` transactions, then the events of the wait, whose answer it gives. `y`: what
the flip-flops hold before the wait is not said (10 R37). -/
def Obligations.SendFrameEmitsTheFrameThenWaits : Prop :=
  ∀ (s : State) (src : Nat → Byte), ∃ (E : List Event) (y : Synchronizer),
    E = [.cmd s.cfg.dtmCmd] ++ (List.range s.cfg.fbLen).map (fun i => Event.data (src i)) ++
      [.cmd s.cfg.refreshCmd] ∧
    E.length = s.cfg.fbLen + 2 ∧ s.sendFrame src = State.waitUntilIdle { s with trace := s.trace ++ E, sync := y }

/-- 10 R31, R37 and 43 R150: a poll has the level of the next draw, whatever the flip-flops held. -/
def Obligations.PollReadsTheDrawnLevel : Prop :=
  ∀ (s : State) (y : Synchronizer), State.pollBusy { s with sync := y } = s.pollBusy ∧
    s.pollBusy.1 = s.drawAt 0 ∧ s.pollBusy.2.trace = s.trace ++ [.poll (s.drawAt 0)] ∧
    s.pollBusy.2.nDraws = s.nDraws + 1

/-- 43 R152, the poll count law: `N` draws not ready and then one ready. -/
def Obligations.PollCountLaw : Prop :=
  ∀ (s : State) (N : Nat), (∀ j < N, s.drawAt j ≠ s.cfg.busyReadyLevel) → s.drawAt N = s.cfg.busyReadyLevel →
    if N + 1 ≤ s.cfg.maxPolls then
      s.waitUntilIdle.1 = true ∧
      s.waitUntilIdle.2.trace = s.trace ++
        (List.replicate N [Event.poll (!s.cfg.busyReadyLevel), .delay s.cfg.pollDelayMs]).flatten ++
        [.poll s.cfg.busyReadyLevel] ∧
      pollCount s.waitUntilIdle.2.trace = pollCount s.trace + (N + 1)
    else
      s.waitUntilIdle.1 = false ∧
      s.waitUntilIdle.2.trace = s.trace ++
        (List.replicate (s.cfg.maxPolls - 1) [Event.poll (!s.cfg.busyReadyLevel), .delay s.cfg.pollDelayMs]).flatten ++
        [.poll (!s.cfg.busyReadyLevel)] ∧
      pollCount s.waitUntilIdle.2.trace = pollCount s.trace + s.cfg.maxPolls

/-- 43 R153: a wait makes at least one poll (and at most MAX_POLLS), takes as many draws as it makes polls, and
writes no register of the block; every operation takes as many draws as it makes polls, and one that waits makes one. -/
def Obligations.EveryWaitPollsAtLeastOnce : Prop :=
  (∀ s : State, ∃ E : List Event, 1 ≤ pollCount E ∧ pollCount E ≤ s.cfg.maxPolls ∧
    s.waitUntilIdle.2 = { s with
      trace := s.trace ++ E, nDraws := s.nDraws + pollCount E, sync := s.waitUntilIdle.2.sync }) ∧
  ∀ (i : Instr) (s t : State), exec i s = .next t → ∃ E : List Event, t.trace = s.trace ++ E ∧
    t.nDraws = s.nDraws + pollCount E ∧
    (i = .init ∨ i = .clear ∨ i = .waitidle ∨ ((∃ inv, i = .display inv) ∧ OperandsFit s) → 1 ≤ pollCount E)

/-! ### The operations -/

/-- 41 R120, R121: the events and the end of INIT, for a wait that sees ready at its `k`-th poll and for one that
never does, and how many events there are. `y` and `q`: what the flip-flops and the hidden sequencer state hold then is
not said (10 R36, R37), here and in the operations below. -/
def Obligations.InitRunsTheWholeSequence : Prop :=
  encode .init = 0x01 ∧ ∀ s : State, (s.launch .init).fsm = .awaitLut ∧
    (∀ k, ReadyAtPoll s k → ∃ y q, exec .init s = .next { s with
      fsm := .ready, rstLine := true,
      trace := s.trace ++ (pulseEvents s.cfg ++ readyWait s.cfg k ++ seqEvents s.cfg.initCfg ++ lutEvents s.cfg),
      nDraws := s.nDraws + k, sync := y,
      status := .ok, statuses := s.statuses ++ [.ok], done := true, active := false, seq := q }) ∧
    (NeverReady s → ∃ y q, exec .init s = .next { s with
      fsm := .uninit, rstLine := true, trace := s.trace ++ (pulseEvents s.cfg ++ failedWait s.cfg),
      nDraws := s.nDraws + s.cfg.maxPolls, sync := y,
      status := .timeout, statuses := s.statuses ++ [.timeout], done := true, active := false,
      seq := q }) ∧
    ∀ k, 1 ≤ k →
      (pulseEvents s.cfg ++ readyWait s.cfg k ++ seqEvents s.cfg.initCfg ++ lutEvents s.cfg).length =
        4 + (2 * k - 1) + s.cfg.nCfg + (s.cfg.initCfg.map fun e => e.data.length).sum + 1 + s.cfg.lutLen

/-- 41 R122: the events of INIT depend on the configuration and the draws alone. -/
def Obligations.InitEventsIgnoreRegistersAndHistory : Prop :=
  ∀ s u : State, s.cfg = u.cfg → (∀ j, s.drawAt j = u.drawAt j) →
    ∃ E t v, exec .init s = .next t ∧ exec .init u = .next v ∧ t.trace = s.trace ++ E ∧ v.trace = u.trace ++ E

/-- 41 R123: with a line that always reads ready, INIT makes exactly one poll. -/
def Obligations.InitWithReadyLinePollsOnce : Prop :=
  ∀ s : State, (∀ j < s.cfg.maxPolls, s.drawAt j = s.cfg.busyReadyLevel) →
    ∃ t, exec .init s = .next t ∧
      t.trace = s.trace ++ (pulseEvents s.cfg ++ [.poll s.cfg.busyReadyLevel] ++ seqEvents s.cfg.initCfg ++
        [.cmd s.cfg.lutCmd] ++ s.cfg.lut.map Event.data) ∧
      s.cfg.lut.length = s.cfg.lutLen ∧ pollCount t.trace = pollCount s.trace + 1

/-- 41 R124 and 40 R106: RESET emits the four events of the pulse, in every state, completes with OK and leaves
UNINIT, where DISPLAY, CLEAR, SETLUT and SLEEP are misuse. -/
def Obligations.ResetPulsesTheResetLine : Prop :=
  encode .reset = 0x02 ∧ (∀ s : State, ∃ y q, exec .reset s = .next { s with
    fsm := .uninit, rstLine := true,
    trace := s.trace ++ [.setRst false, .delay s.cfg.tRstLowMs, .setRst true, .delay s.cfg.tRstHighMs],
    status := .ok, statuses := s.statuses ++ [.ok], done := true, active := false, sync := y, seq := q }) ∧
  ∀ inv, legal (.display inv) .uninit = false ∧ legal .clear .uninit = false ∧ legal .setlut .uninit = false ∧
    legal .sleep .uninit = false

/-- 41 R125: out of UNINIT only INIT leads; the operations that need READY or AWAIT_LUT are flagged there. -/
def Obligations.OnlyInitLeavesUninit : Prop :=
  ∀ (i : Instr) (s t : State), s.fsm = .uninit → exec i s = .next t → i ≠ .init →
    t.fsm = .uninit ∧
    ((i = .setlut ∨ i = .clear ∨ i = .sleep ∨ ((∃ inv, i = .display inv) ∧ t.status ≠ .badlen)) → t.misuse = true)

/-- 42 R140, R141: SETLUT sends the LUT in every state, `1 + LUT_LEN` events; it leads from AWAIT_LUT to READY, and
is a misuse that changes no state elsewhere. -/
def Obligations.SetlutSendsTheLut : Prop :=
  encode .setlut = 0x03 ∧ ∀ s : State, (∃ y q, exec .setlut s = .next { s with
    fsm := if s.fsm = .awaitLut then .ready else s.fsm,
    misuse := s.misuse || !decide (s.fsm = .awaitLut),
    trace := s.trace ++ ([.cmd s.cfg.lutCmd] ++ s.cfg.lut.map Event.data),
    status := .ok, statuses := s.statuses ++ [.ok], done := true, active := false, sync := y, seq := q }) ∧
    ([Event.cmd s.cfg.lutCmd] ++ s.cfg.lut.map Event.data).length = 1 + s.cfg.lutLen

/-- 43 R155: WAITIDLE waits; ready leads from BUSY to READY, a failed wait changes no state. -/
def Obligations.WaitidleWaitsForReady : Prop :=
  encode .waitidle = 0x07 ∧ ∀ s : State,
    (∀ k, ReadyAtPoll s k → ∃ y q, exec .waitidle s = .next { s with
      fsm := if s.fsm = .busy then .ready else s.fsm, trace := s.trace ++ readyWait s.cfg k,
      nDraws := s.nDraws + k, sync := y,
      status := .ok, statuses := s.statuses ++ [.ok], done := true, active := false, seq := q }) ∧
    (NeverReady s → ∃ y q, exec .waitidle s = .next { s with
      trace := s.trace ++ failedWait s.cfg,
      nDraws := s.nDraws + s.cfg.maxPolls, sync := y,
      status := .timeout, statuses := s.statuses ++ [.timeout], done := true, active := false,
      seq := q })

/-- 44 R171, 20 R53: DISPLAY enters BUSY before its first event, sends the bytes from `base` up, complemented if
`inv`, refreshes and waits; outside READY it is a misuse and changes no state. -/
def Obligations.DisplaySendsTheFrame : Prop :=
  encode (.display false) = 0x04 ∧ encode (.display true) = 0x0C ∧ ∀ (inv : Bool) (s : State), OperandsFit s →
    (s.fsm = .ready → (s.launch (.display inv)).fsm = .busy) ∧
    (∀ k, ReadyAtPoll s k → ∃ y q, exec (.display inv) s = .next { s with
      misuse := s.misuse || !decide (s.fsm = .ready),
      trace := s.trace ++ (frameEvents s.cfg (frameBytes s inv) ++ readyWait s.cfg k),
      nDraws := s.nDraws + k, sync := y,
      status := .ok, statuses := s.statuses ++ [.ok], done := true, active := false, seq := q }) ∧
    (NeverReady s → ∃ y q, exec (.display inv) s = .next { s with
      fsm := if s.fsm = .ready then .busy else s.fsm,
      misuse := s.misuse || !decide (s.fsm = .ready),
      trace := s.trace ++ (frameEvents s.cfg (frameBytes s inv) ++ failedWait s.cfg),
      nDraws := s.nDraws + s.cfg.maxPolls, sync := y,
      status := .timeout, statuses := s.statuses ++ [.timeout], done := true, active := false,
      seq := q })

/-- 44 R173, 20 R57, 60 R202: a wrong length, or a buffer that leaves the address space, completes with BADLEN; no
event, no read, no other change. -/
def Obligations.DisplayRejectsAMisfitBuffer : Prop :=
  ∀ (inv : Bool) (s : State),
    (s.seq.len ≠ s.cfg.width * s.cfg.height / 8 ∨
      2 ^ s.cfg.fbAbits < s.seq.base + s.cfg.width * s.cfg.height / 8) →
    ∃ y q, exec (.display inv) s = .next { s with
      status := .badlen, statuses := s.statuses ++ [.badlen], done := true, active := false,
      sync := y, seq := q }

/-- 44 R172, the inversion law: DISPLAY over a memory and DISPLAY.INV over its complement do the same. -/
def Obligations.InvertedDisplayOfComplementIsTheSame : Prop :=
  ∀ (s : State) (m : List Host.Cell),
    (∀ i < s.cfg.fbLen, Memory.read m (s.seq.base + i) = ~~~(s.memRead (s.seq.base + i))) →
    ∃ t, exec (.display false) s = .next t ∧ exec (.display true) { s with mem := m } = .next { t with mem := m }

/-- 44 R174: CLEAR sends `FB_LEN` bytes `CLEAR_BYTE` and follows DISPLAY's protocol, with no operand check. -/
def Obligations.ClearSendsAUniformFrame : Prop :=
  encode .clear = 0x05 ∧ ∀ s : State, (s.fsm = .ready → (s.launch .clear).fsm = .busy) ∧
    (∀ k, ReadyAtPoll s k → ∃ y q, exec .clear s = .next { s with
      misuse := s.misuse || !decide (s.fsm = .ready),
      trace := s.trace ++
        (frameEvents s.cfg (List.replicate s.cfg.fbLen s.cfg.clearByte) ++ readyWait s.cfg k),
      nDraws := s.nDraws + k, sync := y,
      status := .ok, statuses := s.statuses ++ [.ok], done := true, active := false, seq := q }) ∧
    (NeverReady s → ∃ y q, exec .clear s = .next { s with
      fsm := if s.fsm = .ready then .busy else s.fsm,
      misuse := s.misuse || !decide (s.fsm = .ready),
      trace := s.trace ++
        (frameEvents s.cfg (List.replicate s.cfg.fbLen s.cfg.clearByte) ++ failedWait s.cfg),
      nDraws := s.nDraws + s.cfg.maxPolls, sync := y,
      status := .timeout, statuses := s.statuses ++ [.timeout], done := true, active := false,
      seq := q })

/-- 44 R175: CLEAR is a DISPLAY of a framebuffer whose bytes all equal `CLEAR_BYTE`. -/
def Obligations.ClearIsDisplayOfAUniformBuffer : Prop :=
  ∀ s : State, OperandsFit s → (∀ i < s.cfg.fbLen, s.memRead (s.seq.base + i) = s.cfg.clearByte) →
    ∃ t, exec .clear s = .next t ∧ exec (.display false) s = .next t

/-- 45 R190: SLEEP sends SLEEP_SEQ in every state, with no poll and no delay, completes with OK; it leads from READY
to ASLEEP, and is a misuse that changes no state elsewhere. -/
def Obligations.SleepSendsTheSleepSequence : Prop :=
  encode .sleep = 0x06 ∧ ∀ s : State, ∃ y q, exec .sleep s = .next { s with
    fsm := if s.fsm = .ready then .asleep else s.fsm,
    misuse := s.misuse || !decide (s.fsm = .ready),
    trace := s.trace ++ s.cfg.sleepSeq.flatMap (fun e => Event.cmd e.cmd :: e.data.map Event.data),
    status := .ok, statuses := s.statuses ++ [.ok], done := true, active := false, sync := y, seq := q }

/-- 45 R191: in ASLEEP only INIT, RESET and WAITIDLE are legal; a DISPLAY there runs and is flagged; INIT there emits
the events of a first INIT. -/
def Obligations.AsleepAllowsOnlyInitResetWaitidle : Prop :=
  (∀ i, legal i .asleep = true ↔ i = .init ∨ i = .reset ∨ i = .waitidle) ∧
  (∀ (inv : Bool) (s : State), s.fsm = .asleep → OperandsFit s →
    ∃ t E, exec (.display inv) s = .next t ∧ t.misuse = true ∧ t.fsm = .asleep ∧
      t.trace = s.trace ++ (frameEvents s.cfg (frameBytes s inv) ++ E)) ∧
  ∀ s : State, ∃ t u, exec .init { s with fsm := .asleep } = .next t ∧
    exec .init { s with fsm := .uninit } = .next u ∧ t.trace = u.trace ∧ t.fsm = u.fsm

/-! ### Legality, status and frames, over all operations -/

/-- 40 R107: the table of legal cells, and the state every operation leaves. -/
def Obligations.LegalityTableAndEndStates : Prop :=
  (∀ f : Fsm, legal .init f = true ∧ legal .reset f = true ∧ legal .waitidle f = true ∧
    (legal .setlut f = true ↔ f = .awaitLut) ∧ (∀ inv, legal (.display inv) f = true ↔ f = .ready) ∧
    (legal .clear f = true ↔ f = .ready) ∧ (legal .sleep f = true ↔ f = .ready)) ∧
  ∀ (i : Instr) (s t : State), exec i s = .next t →
    t.fsm = if legal i s.fsm = true then legalEnd i s.fsm t.status else s.fsm

/-- 40 R108: an operation that is not legal emits the events, takes the draws and completes with the status it would
in any other state; it sets MISUSE before its first event and leaves the state. (BADLEN stands before legality,
30 R78.) -/
def Obligations.MisuseIsFlaggedNotPrevented : Prop :=
  ∀ (i : Instr) (s : State) (f : Fsm), ∃ t u E,
    exec i s = .next t ∧ exec i { s with fsm := f } = .next u ∧
    t.trace = s.trace ++ E ∧ u.trace = s.trace ++ E ∧ t.status = u.status ∧ t.nDraws = u.nDraws ∧
    (legal i s.fsm = false → t.fsm = s.fsm ∧
      (t.status ≠ .badlen → t.misuse = true ∧ (s.launch i).misuse = true ∧ (s.launch i).trace = s.trace))

/-- 10 R25: the misuse flag after every operation; no step but a block reset clears it, and that does; the host reads
it at any time. -/
def Obligations.OnlyBlockResetClearsMisuse : Prop :=
  (∀ (i : Instr) (s t : State), exec i s = .next t →
    t.misuse = if t.status = .badlen then s.misuse else s.misuse || !legal i s.fsm) ∧
  (∀ s t : State, step s = .next t → s.misuse = true → t.misuse = true ∨ MeetsBlockReset s) ∧
  (∀ (s : State) (rest : List Input), s.active = false → s.inputs = .blockReset :: rest →
    ∃ t, step s = .next t ∧ t.misuse = false) ∧
  ∀ s : State, s.ports.misuse = s.misuse

/-- 30 R75, R76, 10 R24, 60 R200: every operation completes with one status, written once; which operations can have
which status. -/
def Obligations.EveryOperationCompletesOnce : Prop :=
  ∀ (i : Instr) (s : State), ∃ t, exec i s = .next t ∧
    t.statuses = s.statuses ++ [t.status] ∧ t.done = true ∧ t.active = false ∧ t.status ≠ .illegal ∧
    (t.status = .timeout → i = .init ∨ i = .clear ∨ i = .waitidle ∨ ∃ inv, i = .display inv) ∧
    (t.status = .badlen ↔ (∃ inv, i = .display inv) ∧ ¬ OperandsFit s)

/-- 60 R201: an operation whose wait never sees ready completes with TIMEOUT; a TIMEOUT has that cause, comes from an
operation that waits, leaves the failed wait at the end of the trace, and leaves the state R201 says. -/
def Obligations.TimeoutIsPrecise : Prop :=
  (∀ (i : Instr) (s : State), NeverReady s →
    i = .init ∨ i = .clear ∨ i = .waitidle ∨ ((∃ inv, i = .display inv) ∧ OperandsFit s) →
    ∃ t, exec i s = .next t ∧ t.status = .timeout) ∧
  ∀ (i : Instr) (s t : State), exec i s = .next t → t.status = .timeout →
    NeverReady s ∧ t.status.code = 1 ∧
    (∃ P, t.trace = s.trace ++ P ++ failedWait s.cfg ∧ pollCount P = 0) ∧
    pollCount (failedWait s.cfg) = s.cfg.maxPolls ∧
    (failedWait s.cfg).countP (fun e => e = .delay s.cfg.pollDelayMs) = s.cfg.maxPolls - 1 ∧
    (i = .init ∧ t.fsm = .uninit ∨ i = .waitidle ∧ t.fsm = s.fsm ∨
      (i = .clear ∨ ∃ inv, i = .display inv) ∧ t.fsm = if s.fsm = .ready then .busy else s.fsm)

/-- 60 R207: one word has one status, and the order of the checks of one word. -/
def Obligations.ChecksAreTakenInOrder : Prop :=
  (∀ (s : State) (op : HostOp) (rest : List Input), s.active = false → s.inputs = .word op :: rest →
    ∃ t, step s = .next t ∧ t.statuses = s.statuses ++ [t.status]) ∧
  (∀ (s : State) (op : HostOp) (rest : List Input) (why : IllegalWord), s.active = false →
    s.inputs = .word op :: rest → decode op.word = .illegal why →
    ∃ t, step s = .next t ∧ t.status = .illegal ∧ t.misuse = s.misuse ∧ t.fsm = s.fsm) ∧
  (∀ (inv : Bool) (s : State), ¬ OperandsFit s →
    ∃ t, exec (.display inv) s = .next t ∧ t.status = .badlen ∧ t.misuse = s.misuse ∧ t.trace = s.trace) ∧
  (∀ (inv : Bool) (s : State), OperandsFit s → s.fsm ≠ .ready → NeverReady s →
    ∃ t, exec (.display inv) s = .next t ∧ t.status = .timeout ∧ t.misuse = true) ∧
  ∀ s : State, s.fsm ≠ .ready → NeverReady s →
    ∃ t, exec .clear s = .next t ∧ t.status = .timeout ∧ t.misuse = true

/-- 10 R26, R33, R39, 20 R52, 43 R153: what an operation leaves unchanged. Every instruction: memory byte for byte,
the stores, the host's and the environment's lists, the ports of the transport and of the framebuffer. Only INIT and
RESET write the reset line, which they leave high; only INIT, DISPLAY, CLEAR and WAITIDLE take draws. That the flip-flops
hold over RESET, SETLUT and SLEEP is log 6, the model's own. -/
def Obligations.OperationFrame : Prop :=
  ∀ (i : Instr) (s t : State), exec i s = .next t →
    (∀ a, t.memRead a = s.memRead a) ∧ t.mem = s.mem ∧ t.cfg = s.cfg ∧ t.inputs = s.inputs ∧
    t.opIndex = s.opIndex ∧ t.draws = s.draws ∧ t.tx = s.tx ∧ t.fbRd = s.fbRd ∧
    t.rstLine = (if i = .init ∨ i = .reset then true else s.rstLine) ∧
    (i = .reset ∨ i = .setlut ∨ i = .sleep → t.nDraws = s.nDraws ∧ t.sync = s.sync)

/-- 20 R51, R52, 10 R32: no operation writes memory; the result depends on no byte of it but the `FB_LEN` bytes of an
accepted DISPLAY. -/
def Obligations.OnlyDisplayDependsOnMemory : Prop :=
  ∀ (i : Instr) (s t : State) (m : List Host.Cell), exec i s = .next t →
    (∀ inv, i = .display inv → OperandsFit s →
      ∀ j < s.cfg.fbLen, Memory.read m (s.seq.base + j) = s.memRead (s.seq.base + j)) →
    exec i { s with mem := m } = .next { t with mem := m }

/-- 70 R250: the milliseconds of each of the seven operations, as the sum of its delays; `k` is how many polls its
wait makes. R250 lists six; WAITIDLE and a rejected DISPLAY follow from its first sentence with 43 R152 and 44 R173. -/
def Obligations.DelayTotals : Prop :=
  ∀ s : State,
    (∀ k, ReadyAtPoll s k ∨ (NeverReady s ∧ k = s.cfg.maxPolls) →
      (∃ t, exec .init s = .next t ∧ delayTotal t.trace =
        delayTotal s.trace + (s.cfg.tRstLowMs + s.cfg.tRstHighMs + (k - 1) * s.cfg.pollDelayMs)) ∧
      (∃ t, exec .clear s = .next t ∧ delayTotal t.trace = delayTotal s.trace + (k - 1) * s.cfg.pollDelayMs) ∧
      (∃ t, exec .waitidle s = .next t ∧ delayTotal t.trace = delayTotal s.trace + (k - 1) * s.cfg.pollDelayMs) ∧
      ∀ inv, OperandsFit s → ∃ t, exec (.display inv) s = .next t ∧
        delayTotal t.trace = delayTotal s.trace + (k - 1) * s.cfg.pollDelayMs) ∧
    (∀ inv, ¬ OperandsFit s → ∃ t, exec (.display inv) s = .next t ∧ delayTotal t.trace = delayTotal s.trace) ∧
    (∃ t, exec .reset s = .next t ∧
      delayTotal t.trace = delayTotal s.trace + (s.cfg.tRstLowMs + s.cfg.tRstHighMs)) ∧
    (∃ t, exec .setlut s = .next t ∧ delayTotal t.trace = delayTotal s.trace) ∧
    ∃ t, exec .sleep s = .next t ∧ delayTotal t.trace = delayTotal s.trace

/-! ### Whole-machine rules, over every step -/

/-- The invariant holds at power-on, whatever the configuration. -/
def Obligations.InvariantHoldsAtReset : Prop :=
  MachineInv State.reset ∧ ∀ c : Config, MachineInv (State.powerOn c)

/-- Every step keeps the invariant of Safety.lean: AWAIT_LUT only in an active INIT (42 R142), the reset line low only
inside the pulse (10 R26), no transaction overlapping another (10 R35, 20 R61), every framebuffer read inside the buffer
(20 R51, R57), every wait bounded (43 R151). The model's own: memory canonical (log 8), the idle hidden state at zero
(log 7), no `done` while active (log 17), no read pending beside a transaction (log 20). -/
def Obligations.EveryStepKeepsTheInvariant : Prop :=
  ∀ s t : State, MachineInv s → step s = .next t → MachineInv t

/-- 42 R142: AWAIT_LUT is held only while an INIT is active, so a SETLUT word is a misuse at every boundary. -/
def Obligations.AwaitLutIsHeldOnlyByAnActiveInit : Prop :=
  ∀ s t : State, MachineInv s → step s = .next t →
    (t.fsm = .awaitLut → t.active = true ∧ decode t.seq.word = .instr .init) ∧
    (t.active = false → legal .setlut t.fsm = false)

/-- 20 R51, R57: an address the block requests is one of DISPLAY's buffer and of the address space. -/
def Obligations.NeverReadsOutOfBounds : Prop :=
  ∀ (s t : State) (a : Nat), MachineInv s → step s = .next t → t.fbRd = some a →
    (∃ inv, decode t.seq.word = .instr (.display inv)) ∧ t.seq.base ≤ a ∧ a < t.seq.base + t.cfg.fbLen ∧
    a < 2 ^ t.cfg.fbAbits

/-- 10 R29: the trace is append-only over every step, block resets included. -/
def Obligations.TraceIsAppendOnly : Prop :=
  ∀ s t : State, step s = .next t → ∃ E, t.trace = s.trace ++ E

/-- 10 R24: `reg.STATUS` is written only where a word completes, with that word's status, or by a block reset. -/
def Obligations.StatusChangesOnlyAtACompletion : Prop :=
  ∀ s t : State, step s = .next t → ¬ MeetsBlockReset s →
    (t.statuses = s.statuses ∧ t.status = s.status) ∨ t.statuses = s.statuses ++ [t.status]

/-- 10 R26: the reset line changes only in the pulse of INIT or RESET, or by a block reset. A move changes it in the
pulse phase alone, which under the invariant is one of an active INIT or RESET. -/
def Obligations.OnlyThePulseMovesTheResetLine : Prop :=
  ∀ s t : State, step s = .next t → t.rstLine ≠ s.rstLine →
    MeetsBlockReset s ∨ (s.active = true ∧ s.seq.phase = .pulse ∧
        (MachineInv s → decode s.seq.word = .instr .init ∨ decode s.seq.word = .instr .reset)) ∨
    ∃ op rest, s.active = false ∧ s.inputs = .word op :: rest ∧
      (decode op.word = .instr .init ∨ decode op.word = .instr .reset)

/-- 10 R27, 70 R248: while an operation is active the block takes no word. That nothing writes memory, at any address
and in any operation, is log 11, the model's own: 20 R60 forbids only writes to the bytes of a DISPLAY. -/
def Obligations.ActiveBlockTakesNoWord : Prop :=
  ∀ s : State, s.active = true → s.ports.opReady = false ∧
    ∃ t, step s = .next t ∧ t.inputs = s.inputs ∧ t.opIndex = s.opIndex ∧ t.mem = s.mem ∧ t.statuses.length ≤
      s.statuses.length + 1

/-! ### The sequencer, move by move -/

/-- 40 R100, 10 R36: stepped one event at a time, the block produces the same events in the same order and the same
end as the whole operation; so does the run of single steps of a word the host watches move by move (log 9, the
model's own). -/
def Obligations.SequencerRefinesTheOperation : Prop :=
  (∀ (i : Instr) (s : State), decode s.seq.word = .instr i → s.active = true → s.tx = none → s.fbRd = none →
    s.seq.ms = 0 → ∃ n t, exec i s = .next t ∧ State.moves n (s.launch i) = t ∧ t.active = false) ∧
  ∀ (s : State) (op : HostOp) (rest : List Input), s.active = false → s.inputs = .wordByMoves op :: rest →
    s.tx = none → s.fbRd = none →
    ∃ n t, runWord s op rest = .next t ∧ Host.Core.run Sys2Proof.core (n + 1) s = .next t ∧ t.active = false

/-- 20 R51, R56: a DISPLAY requests each of its `FB_LEN` bytes once, in ascending order, and no other. -/
def Obligations.SequencerReadsEachByteOnce : Prop :=
  ∀ (inv : Bool) (s : State), decode s.seq.word = .instr (.display inv) → s.active = true → s.tx = none →
    s.fbRd = none → s.seq.ms = 0 → OperandsFit s →
    ∃ n, (State.moves n (s.launch (.display inv))).active = false ∧
      requests n (s.launch (.display inv)) = (List.range s.cfg.fbLen).map fun j => s.seq.base + j

/-- 70 R241, 10 R29: a block reset inside an operation keeps the events that the moves before it emitted, all of them,
which are the first events of the whole operation, emits no more, gives no `done`, completes nothing, and leaves the
reset state. That it lands after a number of moves is log 13, the model's own. -/
def Obligations.BlockResetCutsAnOperation : Prop :=
  ∀ (s : State) (op : HostOp) (n : Nat) (rest : List Input), s.active = false →
    s.inputs = .wordCut op n :: rest → s.tx = none → s.fbRd = none →
    ∃ t u, step s = .next t ∧ runWord s op rest = .next u ∧
      t.trace = (State.moves n (s.start op rest)).trace ∧
      (∃ E F, t.trace = s.trace ++ E ∧ u.trace = t.trace ++ F) ∧
      t.fsm = .uninit ∧ t.status = .ok ∧ t.misuse = false ∧ t.rstLine = true ∧ t.active = false ∧ t.done = false ∧
      t.tx = none ∧ t.fbRd = none ∧ t.mem = s.mem ∧ t.cfg = s.cfg ∧
      ((State.moves n (s.start op rest)).active = true → t.statuses = s.statuses)

/-- 10 R38, 41 R120, 44 R171: while an operation is active, `status` is the previous operation's, and `fsm_state` shows
the state the rule writes before its first event, or, where it writes none then or is misused (40 R108), the state
before; the host reads all three ports in every state. The model's own: that this lasts up to the move that completes the
operation, since its last state write and its completion are one move (log 21), and what a move is (log 9). -/
def Obligations.StatusIsHeldWhileActive : Prop :=
  (∀ s : State, s.active = true → s.move.active = true →
    s.move.fsm = s.fsm ∧ s.move.status = s.status ∧ s.move.statuses = s.statuses) ∧
  (∀ (i : Instr) (s : State), s.active = true → (s.launch i).active = true → (s.launch i).status = s.status) ∧
  (∀ s : State, (s.launch .init).fsm = .awaitLut ∧ (s.launch .reset).fsm = .uninit ∧
    (s.fsm = .ready → (s.launch .clear).fsm = .busy ∧
      ∀ inv, OperandsFit s → (s.launch (.display inv)).fsm = .busy)) ∧
  (∀ (i : Instr) (s : State), i = .setlut ∨ i = .sleep ∨ i = .waitidle ∨ legal i s.fsm = false ∨
    ((∃ inv, i = .display inv) ∧ ¬ OperandsFit s) → (s.launch i).fsm = s.fsm) ∧
  ∀ s : State, s.ports.status = s.status.code ∧ s.ports.fsmState = s.fsm.code ∧ s.ports.misuse = s.misuse

/-- A move emits at most one event, and a transaction only by the transport taking the one that was offered (10 R35,
20 R61). The model's own: the size of a move (log 9), and that the port is empty once a transaction is taken (log 20). -/
def Obligations.OneMoveEmitsAtMostOneEvent : Prop :=
  ∀ s : State, ∃ E, s.move.trace = s.trace ++ E ∧ E.length ≤ 1 ∧
    ∀ e ∈ E, e.isTransaction = true → ∃ x, s.tx = some x ∧ x.event = e ∧ s.move.tx = none
end

