-- ==== Sys2Proof/Laws/Memory.lean ====
section
/-! SUPPORT. Framebuffer memory: read after write, and the canonical form every write keeps. -/

namespace Sys2Proof.Machine

theorem Memory.wfFrom_mono {lo hi : Nat} (h : lo ≤ hi) :
    ∀ {m : List Host.Cell}, Memory.wfFrom hi m = true → Memory.wfFrom lo m = true
  | [], _ => rfl
  | (a, b) :: rest, hm => by
    simp only [Memory.wfFrom, Bool.and_eq_true, decide_eq_true_eq] at hm ⊢
    exact ⟨⟨by omega, hm.1.2⟩, hm.2⟩

/-- Below its first entry, memory reads as nothing written. -/
theorem Memory.read_of_lt {lo addr : Nat} (h : addr < lo) :
    ∀ {m : List Host.Cell}, Memory.wfFrom lo m = true → Memory.read m addr = Memory.unlisted
  | [], _ => rfl
  | (a, b) :: rest, hm => by
    simp only [Memory.wfFrom, Bool.and_eq_true, decide_eq_true_eq] at hm
    simp only [Memory.read]
    rw [if_neg (by omega)]
    exact Memory.read_of_lt (lo := a + 1) (by omega) hm.2

/-- A write keeps the canonical form. -/
theorem Memory.write_wfFrom (addr : Nat) (b : Byte) :
    ∀ {lo : Nat} {m : List Host.Cell}, lo ≤ addr → Memory.wfFrom lo m = true →
      Memory.wfFrom lo (Memory.write m addr b) = true
  | lo, [], hlo, _ => by
    simp only [Memory.write]
    split <;> simp_all [Memory.wfFrom]
  | lo, (a, c) :: rest, hlo, hm => by
    simp only [Memory.wfFrom, Bool.and_eq_true, decide_eq_true_eq] at hm
    simp only [Memory.write]
    split
    · split
      · simp [Memory.wfFrom, hm]
      · simp only [Memory.wfFrom, Bool.and_eq_true, decide_eq_true_eq]
        exact ⟨⟨hlo, by assumption⟩, ⟨by omega, hm.1.2⟩, hm.2⟩
    · split
      · split
        · exact Memory.wfFrom_mono (by omega) hm.2
        · simp_all [Memory.wfFrom]
      · simp only [Memory.wfFrom, Bool.and_eq_true, decide_eq_true_eq]
        exact ⟨hm.1, Memory.write_wfFrom addr b (by omega) hm.2⟩

theorem Memory.write_wf {m : List Host.Cell} (h : Memory.wf m = true) (addr : Nat) (b : Byte) :
    Memory.wf (Memory.write m addr b) = true :=
  Memory.write_wfFrom addr b (Nat.zero_le addr) h

theorem Memory.within_cons {limit a : Nat} {b : Byte} {m : List Host.Cell} :
    Memory.within limit ((a, b) :: m) = true ↔ a < limit ∧ Memory.within limit m = true := by
  rw [Memory.within, List.all_cons, Bool.and_eq_true, decide_eq_true_eq]
  rfl

/-- A write stays inside the address space. -/
theorem Memory.write_within {limit addr : Nat} (ha : addr < limit) (b : Byte) :
    ∀ {m : List Host.Cell}, Memory.within limit m = true → Memory.within limit (Memory.write m addr b) = true
  | [], _ => by simp only [Memory.write]; split <;> simp [Memory.within, ha]
  | (a, c) :: rest, hm => by
    have hr := Memory.within_cons.mp hm
    simp only [Memory.write]
    split
    · split
      · exact hm
      · exact Memory.within_cons.mpr ⟨ha, hm⟩
    · split
      · split
        · exact hr.2
        · exact Memory.within_cons.mpr ⟨hr.1, hr.2⟩
      · exact Memory.within_cons.mpr ⟨hr.1, Memory.write_within ha b hr.2⟩

/-- A read of the address written gives the byte written. -/
theorem Memory.read_write_same (addr : Nat) (b : Byte) :
    ∀ {lo : Nat} {m : List Host.Cell}, Memory.wfFrom lo m = true →
      Memory.read (Memory.write m addr b) addr = b
  | _, [], _ => by
    simp only [Memory.write]
    split <;> simp_all [Memory.read]
  | lo, (a, c) :: rest, hm => by
    simp only [Memory.wfFrom, Bool.and_eq_true, decide_eq_true_eq] at hm
    simp only [Memory.write]
    split
    · split
      · rename_i hlt hb
        simp only [Memory.read]
        rw [if_neg (by omega), Memory.read_of_lt (lo := a + 1) (by omega) hm.2, hb]
      · simp [Memory.read]
    · split
      · rename_i h
        subst h
        split
        · rename_i hb
          rw [Memory.read_of_lt (lo := addr + 1) (by omega) hm.2, hb]
        · simp [Memory.read]
      · simp only [Memory.read]
        rw [if_neg (by assumption)]
        exact Memory.read_write_same addr b hm.2

/-- A write leaves every other address alone. -/
theorem Memory.read_write_other {addr x : Nat} (hx : x ≠ addr) (b : Byte) :
    ∀ {m : List Host.Cell}, Memory.read (Memory.write m addr b) x = Memory.read m x
  | [] => by
    simp only [Memory.write]
    split <;> simp [Memory.read, hx]
  | (a, c) :: rest => by
    have ih := Memory.read_write_other hx b (m := rest)
    simp only [Memory.write]
    split
    · split <;> simp [Memory.read, hx]
    · split
      · rename_i h
        subst h
        split <;> simp [Memory.read, hx]
      · simp [Memory.read, ih]

/-- The reset memory has the canonical form. -/
theorem reset_memory_wf : Memory.wf State.reset.mem = true := rfl

end Sys2Proof.Machine
end

