-- ==== Sys2Proof/Laws/State.lean ====
section
/-! SUPPORT. What each one-step update of State does to each field: true by unfolding, for simp. -/

namespace Sys2Proof.Machine

variable (s : State)

/-! ### `emit` -/

@[simp] theorem State.emit_fsm (e : Event) : (s.emit e).fsm = s.fsm := rfl
@[simp] theorem State.emit_status (e : Event) : (s.emit e).status = s.status := rfl
@[simp] theorem State.emit_misuse (e : Event) : (s.emit e).misuse = s.misuse := rfl
@[simp] theorem State.emit_rstLine (e : Event) : (s.emit e).rstLine = s.rstLine := rfl
@[simp] theorem State.emit_active (e : Event) : (s.emit e).active = s.active := rfl
@[simp] theorem State.emit_done (e : Event) : (s.emit e).done = s.done := rfl
@[simp] theorem State.emit_tx (e : Event) : (s.emit e).tx = s.tx := rfl
@[simp] theorem State.emit_fbRd (e : Event) : (s.emit e).fbRd = s.fbRd := rfl
@[simp] theorem State.emit_seq (e : Event) : (s.emit e).seq = s.seq := rfl
@[simp] theorem State.emit_sync (e : Event) : (s.emit e).sync = s.sync := rfl
@[simp] theorem State.emit_cfg (e : Event) : (s.emit e).cfg = s.cfg := rfl
@[simp] theorem State.emit_trace (e : Event) : (s.emit e).trace = s.trace ++ [e] := rfl
@[simp] theorem State.emit_statuses (e : Event) : (s.emit e).statuses = s.statuses := rfl
@[simp] theorem State.emit_mem (e : Event) : (s.emit e).mem = s.mem := rfl
@[simp] theorem State.emit_inputs (e : Event) : (s.emit e).inputs = s.inputs := rfl
@[simp] theorem State.emit_opIndex (e : Event) : (s.emit e).opIndex = s.opIndex := rfl
@[simp] theorem State.emit_draws (e : Event) : (s.emit e).draws = s.draws := rfl
@[simp] theorem State.emit_nDraws (e : Event) : (s.emit e).nDraws = s.nDraws := rfl

/-! ### `setRst` -/

@[simp] theorem State.setRst_fsm (v : Level) : (s.setRst v).fsm = s.fsm := rfl
@[simp] theorem State.setRst_status (v : Level) : (s.setRst v).status = s.status := rfl
@[simp] theorem State.setRst_misuse (v : Level) : (s.setRst v).misuse = s.misuse := rfl
@[simp] theorem State.setRst_rstLine (v : Level) : (s.setRst v).rstLine = v := rfl
@[simp] theorem State.setRst_active (v : Level) : (s.setRst v).active = s.active := rfl
@[simp] theorem State.setRst_done (v : Level) : (s.setRst v).done = s.done := rfl
@[simp] theorem State.setRst_tx (v : Level) : (s.setRst v).tx = s.tx := rfl
@[simp] theorem State.setRst_fbRd (v : Level) : (s.setRst v).fbRd = s.fbRd := rfl
@[simp] theorem State.setRst_seq (v : Level) : (s.setRst v).seq = s.seq := rfl
@[simp] theorem State.setRst_sync (v : Level) : (s.setRst v).sync = s.sync := rfl
@[simp] theorem State.setRst_cfg (v : Level) : (s.setRst v).cfg = s.cfg := rfl
@[simp] theorem State.setRst_trace (v : Level) : (s.setRst v).trace = s.trace ++ [.setRst v] := rfl
@[simp] theorem State.setRst_statuses (v : Level) : (s.setRst v).statuses = s.statuses := rfl
@[simp] theorem State.setRst_mem (v : Level) : (s.setRst v).mem = s.mem := rfl
@[simp] theorem State.setRst_inputs (v : Level) : (s.setRst v).inputs = s.inputs := rfl
@[simp] theorem State.setRst_opIndex (v : Level) : (s.setRst v).opIndex = s.opIndex := rfl
@[simp] theorem State.setRst_draws (v : Level) : (s.setRst v).draws = s.draws := rfl
@[simp] theorem State.setRst_nDraws (v : Level) : (s.setRst v).nDraws = s.nDraws := rfl

/-! ### `delayMs` -/

@[simp] theorem State.delayMs_fsm (n : Nat) : (s.delayMs n).fsm = s.fsm := rfl
@[simp] theorem State.delayMs_status (n : Nat) : (s.delayMs n).status = s.status := rfl
@[simp] theorem State.delayMs_misuse (n : Nat) : (s.delayMs n).misuse = s.misuse := rfl
@[simp] theorem State.delayMs_rstLine (n : Nat) : (s.delayMs n).rstLine = s.rstLine := rfl
@[simp] theorem State.delayMs_active (n : Nat) : (s.delayMs n).active = s.active := rfl
@[simp] theorem State.delayMs_done (n : Nat) : (s.delayMs n).done = s.done := rfl
@[simp] theorem State.delayMs_tx (n : Nat) : (s.delayMs n).tx = s.tx := rfl
@[simp] theorem State.delayMs_fbRd (n : Nat) : (s.delayMs n).fbRd = s.fbRd := rfl
@[simp] theorem State.delayMs_seq (n : Nat) : (s.delayMs n).seq = s.seq := rfl
@[simp] theorem State.delayMs_sync (n : Nat) : (s.delayMs n).sync = s.sync := rfl
@[simp] theorem State.delayMs_cfg (n : Nat) : (s.delayMs n).cfg = s.cfg := rfl
@[simp] theorem State.delayMs_trace (n : Nat) : (s.delayMs n).trace = s.trace ++ [.delay n] := rfl
@[simp] theorem State.delayMs_statuses (n : Nat) : (s.delayMs n).statuses = s.statuses := rfl
@[simp] theorem State.delayMs_mem (n : Nat) : (s.delayMs n).mem = s.mem := rfl
@[simp] theorem State.delayMs_inputs (n : Nat) : (s.delayMs n).inputs = s.inputs := rfl
@[simp] theorem State.delayMs_opIndex (n : Nat) : (s.delayMs n).opIndex = s.opIndex := rfl
@[simp] theorem State.delayMs_draws (n : Nat) : (s.delayMs n).draws = s.draws := rfl
@[simp] theorem State.delayMs_nDraws (n : Nat) : (s.delayMs n).nDraws = s.nDraws := rfl

/-! ### `sendCmd` -/

@[simp] theorem State.sendCmd_fsm (b : Byte) : (s.sendCmd b).fsm = s.fsm := rfl
@[simp] theorem State.sendCmd_status (b : Byte) : (s.sendCmd b).status = s.status := rfl
@[simp] theorem State.sendCmd_misuse (b : Byte) : (s.sendCmd b).misuse = s.misuse := rfl
@[simp] theorem State.sendCmd_rstLine (b : Byte) : (s.sendCmd b).rstLine = s.rstLine := rfl
@[simp] theorem State.sendCmd_active (b : Byte) : (s.sendCmd b).active = s.active := rfl
@[simp] theorem State.sendCmd_done (b : Byte) : (s.sendCmd b).done = s.done := rfl
@[simp] theorem State.sendCmd_tx (b : Byte) : (s.sendCmd b).tx = s.tx := rfl
@[simp] theorem State.sendCmd_fbRd (b : Byte) : (s.sendCmd b).fbRd = s.fbRd := rfl
@[simp] theorem State.sendCmd_seq (b : Byte) : (s.sendCmd b).seq = s.seq := rfl
@[simp] theorem State.sendCmd_sync (b : Byte) : (s.sendCmd b).sync = s.sync := rfl
@[simp] theorem State.sendCmd_cfg (b : Byte) : (s.sendCmd b).cfg = s.cfg := rfl
@[simp] theorem State.sendCmd_trace (b : Byte) : (s.sendCmd b).trace = s.trace ++ [.cmd b] := rfl
@[simp] theorem State.sendCmd_statuses (b : Byte) : (s.sendCmd b).statuses = s.statuses := rfl
@[simp] theorem State.sendCmd_mem (b : Byte) : (s.sendCmd b).mem = s.mem := rfl
@[simp] theorem State.sendCmd_inputs (b : Byte) : (s.sendCmd b).inputs = s.inputs := rfl
@[simp] theorem State.sendCmd_opIndex (b : Byte) : (s.sendCmd b).opIndex = s.opIndex := rfl
@[simp] theorem State.sendCmd_draws (b : Byte) : (s.sendCmd b).draws = s.draws := rfl
@[simp] theorem State.sendCmd_nDraws (b : Byte) : (s.sendCmd b).nDraws = s.nDraws := rfl

/-! ### `sendData` -/

@[simp] theorem State.sendData_fsm (b : Byte) : (s.sendData b).fsm = s.fsm := rfl
@[simp] theorem State.sendData_status (b : Byte) : (s.sendData b).status = s.status := rfl
@[simp] theorem State.sendData_misuse (b : Byte) : (s.sendData b).misuse = s.misuse := rfl
@[simp] theorem State.sendData_rstLine (b : Byte) : (s.sendData b).rstLine = s.rstLine := rfl
@[simp] theorem State.sendData_active (b : Byte) : (s.sendData b).active = s.active := rfl
@[simp] theorem State.sendData_done (b : Byte) : (s.sendData b).done = s.done := rfl
@[simp] theorem State.sendData_tx (b : Byte) : (s.sendData b).tx = s.tx := rfl
@[simp] theorem State.sendData_fbRd (b : Byte) : (s.sendData b).fbRd = s.fbRd := rfl
@[simp] theorem State.sendData_seq (b : Byte) : (s.sendData b).seq = s.seq := rfl
@[simp] theorem State.sendData_sync (b : Byte) : (s.sendData b).sync = s.sync := rfl
@[simp] theorem State.sendData_cfg (b : Byte) : (s.sendData b).cfg = s.cfg := rfl
@[simp] theorem State.sendData_trace (b : Byte) : (s.sendData b).trace = s.trace ++ [.data b] := rfl
@[simp] theorem State.sendData_statuses (b : Byte) : (s.sendData b).statuses = s.statuses := rfl
@[simp] theorem State.sendData_mem (b : Byte) : (s.sendData b).mem = s.mem := rfl
@[simp] theorem State.sendData_inputs (b : Byte) : (s.sendData b).inputs = s.inputs := rfl
@[simp] theorem State.sendData_opIndex (b : Byte) : (s.sendData b).opIndex = s.opIndex := rfl
@[simp] theorem State.sendData_draws (b : Byte) : (s.sendData b).draws = s.draws := rfl
@[simp] theorem State.sendData_nDraws (b : Byte) : (s.sendData b).nDraws = s.nDraws := rfl

/-! ### `clockSync` -/

@[simp] theorem State.clockSync_fsm (v : Level) : (s.clockSync v).fsm = s.fsm := rfl
@[simp] theorem State.clockSync_status (v : Level) : (s.clockSync v).status = s.status := rfl
@[simp] theorem State.clockSync_misuse (v : Level) : (s.clockSync v).misuse = s.misuse := rfl
@[simp] theorem State.clockSync_rstLine (v : Level) : (s.clockSync v).rstLine = s.rstLine := rfl
@[simp] theorem State.clockSync_active (v : Level) : (s.clockSync v).active = s.active := rfl
@[simp] theorem State.clockSync_done (v : Level) : (s.clockSync v).done = s.done := rfl
@[simp] theorem State.clockSync_tx (v : Level) : (s.clockSync v).tx = s.tx := rfl
@[simp] theorem State.clockSync_fbRd (v : Level) : (s.clockSync v).fbRd = s.fbRd := rfl
@[simp] theorem State.clockSync_seq (v : Level) : (s.clockSync v).seq = s.seq := rfl
@[simp] theorem State.clockSync_sync (v : Level) : (s.clockSync v).sync = ⟨v, s.sync.ff1⟩ := rfl
@[simp] theorem State.clockSync_cfg (v : Level) : (s.clockSync v).cfg = s.cfg := rfl
@[simp] theorem State.clockSync_trace (v : Level) : (s.clockSync v).trace = s.trace := rfl
@[simp] theorem State.clockSync_statuses (v : Level) : (s.clockSync v).statuses = s.statuses := rfl
@[simp] theorem State.clockSync_mem (v : Level) : (s.clockSync v).mem = s.mem := rfl
@[simp] theorem State.clockSync_inputs (v : Level) : (s.clockSync v).inputs = s.inputs := rfl
@[simp] theorem State.clockSync_opIndex (v : Level) : (s.clockSync v).opIndex = s.opIndex := rfl
@[simp] theorem State.clockSync_draws (v : Level) : (s.clockSync v).draws = s.draws := rfl
@[simp] theorem State.clockSync_nDraws (v : Level) : (s.clockSync v).nDraws = s.nDraws := rfl

/-! ### `checkLegal` -/

@[simp] theorem State.checkLegal_fsm (i : Instr) : (s.checkLegal i).fsm = s.fsm := rfl
@[simp] theorem State.checkLegal_status (i : Instr) : (s.checkLegal i).status = s.status := rfl
@[simp] theorem State.checkLegal_misuse (i : Instr) : (s.checkLegal i).misuse = (s.misuse || !legal i s.fsm) := rfl
@[simp] theorem State.checkLegal_rstLine (i : Instr) : (s.checkLegal i).rstLine = s.rstLine := rfl
@[simp] theorem State.checkLegal_active (i : Instr) : (s.checkLegal i).active = s.active := rfl
@[simp] theorem State.checkLegal_done (i : Instr) : (s.checkLegal i).done = s.done := rfl
@[simp] theorem State.checkLegal_tx (i : Instr) : (s.checkLegal i).tx = s.tx := rfl
@[simp] theorem State.checkLegal_fbRd (i : Instr) : (s.checkLegal i).fbRd = s.fbRd := rfl
@[simp] theorem State.checkLegal_seq (i : Instr) : (s.checkLegal i).seq = { s.seq with legal := legal i s.fsm } := rfl
@[simp] theorem State.checkLegal_sync (i : Instr) : (s.checkLegal i).sync = s.sync := rfl
@[simp] theorem State.checkLegal_cfg (i : Instr) : (s.checkLegal i).cfg = s.cfg := rfl
@[simp] theorem State.checkLegal_trace (i : Instr) : (s.checkLegal i).trace = s.trace := rfl
@[simp] theorem State.checkLegal_statuses (i : Instr) : (s.checkLegal i).statuses = s.statuses := rfl
@[simp] theorem State.checkLegal_mem (i : Instr) : (s.checkLegal i).mem = s.mem := rfl
@[simp] theorem State.checkLegal_inputs (i : Instr) : (s.checkLegal i).inputs = s.inputs := rfl
@[simp] theorem State.checkLegal_opIndex (i : Instr) : (s.checkLegal i).opIndex = s.opIndex := rfl
@[simp] theorem State.checkLegal_draws (i : Instr) : (s.checkLegal i).draws = s.draws := rfl
@[simp] theorem State.checkLegal_nDraws (i : Instr) : (s.checkLegal i).nDraws = s.nDraws := rfl

/-! ### `setState` -/

@[simp] theorem State.setState_fsm (x : Fsm) : (s.setState x).fsm = if s.seq.legal then x else s.fsm := by
  unfold State.setState; split <;> rfl
@[simp] theorem State.setState_status (x : Fsm) : (s.setState x).status = s.status := by
  unfold State.setState; split <;> rfl
@[simp] theorem State.setState_misuse (x : Fsm) : (s.setState x).misuse = s.misuse := by
  unfold State.setState; split <;> rfl
@[simp] theorem State.setState_rstLine (x : Fsm) : (s.setState x).rstLine = s.rstLine := by
  unfold State.setState; split <;> rfl
@[simp] theorem State.setState_active (x : Fsm) : (s.setState x).active = s.active := by
  unfold State.setState; split <;> rfl
@[simp] theorem State.setState_done (x : Fsm) : (s.setState x).done = s.done := by
  unfold State.setState; split <;> rfl
@[simp] theorem State.setState_tx (x : Fsm) : (s.setState x).tx = s.tx := by
  unfold State.setState; split <;> rfl
@[simp] theorem State.setState_fbRd (x : Fsm) : (s.setState x).fbRd = s.fbRd := by
  unfold State.setState; split <;> rfl
@[simp] theorem State.setState_seq (x : Fsm) : (s.setState x).seq = s.seq := by
  unfold State.setState; split <;> rfl
@[simp] theorem State.setState_sync (x : Fsm) : (s.setState x).sync = s.sync := by
  unfold State.setState; split <;> rfl
@[simp] theorem State.setState_cfg (x : Fsm) : (s.setState x).cfg = s.cfg := by
  unfold State.setState; split <;> rfl
@[simp] theorem State.setState_trace (x : Fsm) : (s.setState x).trace = s.trace := by
  unfold State.setState; split <;> rfl
@[simp] theorem State.setState_statuses (x : Fsm) : (s.setState x).statuses = s.statuses := by
  unfold State.setState; split <;> rfl
@[simp] theorem State.setState_mem (x : Fsm) : (s.setState x).mem = s.mem := by
  unfold State.setState; split <;> rfl
@[simp] theorem State.setState_inputs (x : Fsm) : (s.setState x).inputs = s.inputs := by
  unfold State.setState; split <;> rfl
@[simp] theorem State.setState_opIndex (x : Fsm) : (s.setState x).opIndex = s.opIndex := by
  unfold State.setState; split <;> rfl
@[simp] theorem State.setState_draws (x : Fsm) : (s.setState x).draws = s.draws := by
  unfold State.setState; split <;> rfl
@[simp] theorem State.setState_nDraws (x : Fsm) : (s.setState x).nDraws = s.nDraws := by
  unfold State.setState; split <;> rfl

/-! ### `complete` -/

@[simp] theorem State.complete_fsm (st : Status) : (s.complete st).fsm = s.fsm := rfl
@[simp] theorem State.complete_status (st : Status) : (s.complete st).status = st := rfl
@[simp] theorem State.complete_misuse (st : Status) : (s.complete st).misuse = s.misuse := rfl
@[simp] theorem State.complete_rstLine (st : Status) : (s.complete st).rstLine = s.rstLine := rfl
@[simp] theorem State.complete_active (st : Status) : (s.complete st).active = false := rfl
@[simp] theorem State.complete_done (st : Status) : (s.complete st).done = true := rfl
@[simp] theorem State.complete_tx (st : Status) : (s.complete st).tx = s.tx := rfl
@[simp] theorem State.complete_fbRd (st : Status) : (s.complete st).fbRd = s.fbRd := rfl
@[simp] theorem State.complete_seq (st : Status) : (s.complete st).seq = Sequencer.idle := rfl
@[simp] theorem State.complete_sync (st : Status) : (s.complete st).sync = s.sync := rfl
@[simp] theorem State.complete_cfg (st : Status) : (s.complete st).cfg = s.cfg := rfl
@[simp] theorem State.complete_trace (st : Status) : (s.complete st).trace = s.trace := rfl
@[simp] theorem State.complete_statuses (st : Status) : (s.complete st).statuses = s.statuses ++ [st] := rfl
@[simp] theorem State.complete_mem (st : Status) : (s.complete st).mem = s.mem := rfl
@[simp] theorem State.complete_inputs (st : Status) : (s.complete st).inputs = s.inputs := rfl
@[simp] theorem State.complete_opIndex (st : Status) : (s.complete st).opIndex = s.opIndex := rfl
@[simp] theorem State.complete_draws (st : Status) : (s.complete st).draws = s.draws := rfl
@[simp] theorem State.complete_nDraws (st : Status) : (s.complete st).nDraws = s.nDraws := rfl

/-! ### `raise` -/

@[simp] theorem State.raise_fsm (st : Status) : (s.raise st).fsm = s.fsm := rfl
@[simp] theorem State.raise_status (st : Status) : (s.raise st).status = st := rfl
@[simp] theorem State.raise_misuse (st : Status) : (s.raise st).misuse = s.misuse := rfl
@[simp] theorem State.raise_rstLine (st : Status) : (s.raise st).rstLine = s.rstLine := rfl
@[simp] theorem State.raise_active (st : Status) : (s.raise st).active = false := rfl
@[simp] theorem State.raise_done (st : Status) : (s.raise st).done = true := rfl
@[simp] theorem State.raise_tx (st : Status) : (s.raise st).tx = s.tx := rfl
@[simp] theorem State.raise_fbRd (st : Status) : (s.raise st).fbRd = s.fbRd := rfl
@[simp] theorem State.raise_seq (st : Status) : (s.raise st).seq = Sequencer.idle := rfl
@[simp] theorem State.raise_sync (st : Status) : (s.raise st).sync = s.sync := rfl
@[simp] theorem State.raise_cfg (st : Status) : (s.raise st).cfg = s.cfg := rfl
@[simp] theorem State.raise_trace (st : Status) : (s.raise st).trace = s.trace := rfl
@[simp] theorem State.raise_statuses (st : Status) : (s.raise st).statuses = s.statuses ++ [st] := rfl
@[simp] theorem State.raise_mem (st : Status) : (s.raise st).mem = s.mem := rfl
@[simp] theorem State.raise_inputs (st : Status) : (s.raise st).inputs = s.inputs := rfl
@[simp] theorem State.raise_opIndex (st : Status) : (s.raise st).opIndex = s.opIndex := rfl
@[simp] theorem State.raise_draws (st : Status) : (s.raise st).draws = s.draws := rfl
@[simp] theorem State.raise_nDraws (st : Status) : (s.raise st).nDraws = s.nDraws := rfl

/-! ### `accept` -/

@[simp] theorem State.accept_fsm (op : HostOp) (rest : List Input) : (s.accept op rest).fsm = s.fsm := rfl
@[simp] theorem State.accept_status (op : HostOp) (rest : List Input) : (s.accept op rest).status = s.status := rfl
@[simp] theorem State.accept_misuse (op : HostOp) (rest : List Input) : (s.accept op rest).misuse = s.misuse := rfl
@[simp] theorem State.accept_rstLine (op : HostOp) (rest : List Input) : (s.accept op rest).rstLine = s.rstLine := rfl
@[simp] theorem State.accept_active (op : HostOp) (rest : List Input) : (s.accept op rest).active = true := rfl
@[simp] theorem State.accept_done (op : HostOp) (rest : List Input) : (s.accept op rest).done = false := rfl
@[simp] theorem State.accept_tx (op : HostOp) (rest : List Input) : (s.accept op rest).tx = s.tx := rfl
@[simp] theorem State.accept_fbRd (op : HostOp) (rest : List Input) : (s.accept op rest).fbRd = s.fbRd := rfl
@[simp] theorem State.accept_seq (op : HostOp) (rest : List Input) :
    (s.accept op rest).seq = { Sequencer.idle with word := op.word, base := portValue s.cfg.fbAbits op.base, len := portValue s.cfg.lenBits op.len } := rfl
@[simp] theorem State.accept_sync (op : HostOp) (rest : List Input) : (s.accept op rest).sync = s.sync := rfl
@[simp] theorem State.accept_cfg (op : HostOp) (rest : List Input) : (s.accept op rest).cfg = s.cfg := rfl
@[simp] theorem State.accept_trace (op : HostOp) (rest : List Input) : (s.accept op rest).trace = s.trace := rfl
@[simp] theorem State.accept_statuses (op : HostOp) (rest : List Input) : (s.accept op rest).statuses = s.statuses := rfl
@[simp] theorem State.accept_mem (op : HostOp) (rest : List Input) : (s.accept op rest).mem = s.mem := rfl
@[simp] theorem State.accept_inputs (op : HostOp) (rest : List Input) : (s.accept op rest).inputs = rest := rfl
@[simp] theorem State.accept_opIndex (op : HostOp) (rest : List Input) : (s.accept op rest).opIndex = s.opIndex + 1 := rfl
@[simp] theorem State.accept_draws (op : HostOp) (rest : List Input) : (s.accept op rest).draws = s.draws := rfl
@[simp] theorem State.accept_nDraws (op : HostOp) (rest : List Input) : (s.accept op rest).nDraws = s.nDraws := rfl

/-! ### `blockReset` -/

@[simp] theorem State.blockReset_fsm : s.blockReset.fsm = .uninit := rfl
@[simp] theorem State.blockReset_status : s.blockReset.status = .ok := rfl
@[simp] theorem State.blockReset_misuse : s.blockReset.misuse = false := rfl
@[simp] theorem State.blockReset_rstLine : s.blockReset.rstLine = true := rfl
@[simp] theorem State.blockReset_active : s.blockReset.active = false := rfl
@[simp] theorem State.blockReset_done : s.blockReset.done = false := rfl
@[simp] theorem State.blockReset_tx : s.blockReset.tx = none := rfl
@[simp] theorem State.blockReset_fbRd : s.blockReset.fbRd = none := rfl
@[simp] theorem State.blockReset_seq : s.blockReset.seq = Sequencer.idle := rfl
@[simp] theorem State.blockReset_sync : s.blockReset.sync = ⟨false, false⟩ := rfl
@[simp] theorem State.blockReset_cfg : s.blockReset.cfg = s.cfg := rfl
@[simp] theorem State.blockReset_trace : s.blockReset.trace = s.trace := rfl
@[simp] theorem State.blockReset_statuses : s.blockReset.statuses = s.statuses := rfl
@[simp] theorem State.blockReset_mem : s.blockReset.mem = s.mem := rfl
@[simp] theorem State.blockReset_inputs : s.blockReset.inputs = s.inputs := rfl
@[simp] theorem State.blockReset_opIndex : s.blockReset.opIndex = s.opIndex := rfl
@[simp] theorem State.blockReset_draws : s.blockReset.draws = s.draws := rfl
@[simp] theorem State.blockReset_nDraws : s.blockReset.nDraws = s.nDraws := rfl

/-! ### `enter` -/

@[simp] theorem State.enter_fsm (p : Phase) : (s.enter p).fsm = s.fsm := rfl
@[simp] theorem State.enter_status (p : Phase) : (s.enter p).status = s.status := rfl
@[simp] theorem State.enter_misuse (p : Phase) : (s.enter p).misuse = s.misuse := rfl
@[simp] theorem State.enter_rstLine (p : Phase) : (s.enter p).rstLine = s.rstLine := rfl
@[simp] theorem State.enter_active (p : Phase) : (s.enter p).active = s.active := rfl
@[simp] theorem State.enter_done (p : Phase) : (s.enter p).done = s.done := rfl
@[simp] theorem State.enter_tx (p : Phase) : (s.enter p).tx = s.tx := rfl
@[simp] theorem State.enter_fbRd (p : Phase) : (s.enter p).fbRd = s.fbRd := rfl
@[simp] theorem State.enter_seq (p : Phase) : (s.enter p).seq = { s.seq with phase := p, index := 0, k := 0 } := rfl
@[simp] theorem State.enter_sync (p : Phase) : (s.enter p).sync = s.sync := rfl
@[simp] theorem State.enter_cfg (p : Phase) : (s.enter p).cfg = s.cfg := rfl
@[simp] theorem State.enter_trace (p : Phase) : (s.enter p).trace = s.trace := rfl
@[simp] theorem State.enter_statuses (p : Phase) : (s.enter p).statuses = s.statuses := rfl
@[simp] theorem State.enter_mem (p : Phase) : (s.enter p).mem = s.mem := rfl
@[simp] theorem State.enter_inputs (p : Phase) : (s.enter p).inputs = s.inputs := rfl
@[simp] theorem State.enter_opIndex (p : Phase) : (s.enter p).opIndex = s.opIndex := rfl
@[simp] theorem State.enter_draws (p : Phase) : (s.enter p).draws = s.draws := rfl
@[simp] theorem State.enter_nDraws (p : Phase) : (s.enter p).nDraws = s.nDraws := rfl

/-! ### `goto` -/

@[simp] theorem State.goto_fsm (p : Phase) : (s.goto p).fsm = s.fsm := rfl
@[simp] theorem State.goto_status (p : Phase) : (s.goto p).status = s.status := rfl
@[simp] theorem State.goto_misuse (p : Phase) : (s.goto p).misuse = s.misuse := rfl
@[simp] theorem State.goto_rstLine (p : Phase) : (s.goto p).rstLine = s.rstLine := rfl
@[simp] theorem State.goto_active (p : Phase) : (s.goto p).active = s.active := rfl
@[simp] theorem State.goto_done (p : Phase) : (s.goto p).done = s.done := rfl
@[simp] theorem State.goto_tx (p : Phase) : (s.goto p).tx = s.tx := rfl
@[simp] theorem State.goto_fbRd (p : Phase) : (s.goto p).fbRd = s.fbRd := rfl
@[simp] theorem State.goto_seq (p : Phase) : (s.goto p).seq = { s.seq with phase := p } := rfl
@[simp] theorem State.goto_sync (p : Phase) : (s.goto p).sync = s.sync := rfl
@[simp] theorem State.goto_cfg (p : Phase) : (s.goto p).cfg = s.cfg := rfl
@[simp] theorem State.goto_trace (p : Phase) : (s.goto p).trace = s.trace := rfl
@[simp] theorem State.goto_statuses (p : Phase) : (s.goto p).statuses = s.statuses := rfl
@[simp] theorem State.goto_mem (p : Phase) : (s.goto p).mem = s.mem := rfl
@[simp] theorem State.goto_inputs (p : Phase) : (s.goto p).inputs = s.inputs := rfl
@[simp] theorem State.goto_opIndex (p : Phase) : (s.goto p).opIndex = s.opIndex := rfl
@[simp] theorem State.goto_draws (p : Phase) : (s.goto p).draws = s.draws := rfl
@[simp] theorem State.goto_nDraws (p : Phase) : (s.goto p).nDraws = s.nDraws := rfl

/-! ### `advance` -/

@[simp] theorem State.advance_fsm : s.advance.fsm = s.fsm := rfl
@[simp] theorem State.advance_status : s.advance.status = s.status := rfl
@[simp] theorem State.advance_misuse : s.advance.misuse = s.misuse := rfl
@[simp] theorem State.advance_rstLine : s.advance.rstLine = s.rstLine := rfl
@[simp] theorem State.advance_active : s.advance.active = s.active := rfl
@[simp] theorem State.advance_done : s.advance.done = s.done := rfl
@[simp] theorem State.advance_tx : s.advance.tx = s.tx := rfl
@[simp] theorem State.advance_fbRd : s.advance.fbRd = s.fbRd := rfl
@[simp] theorem State.advance_seq : s.advance.seq = { s.seq with index := s.seq.index + 1 } := rfl
@[simp] theorem State.advance_sync : s.advance.sync = s.sync := rfl
@[simp] theorem State.advance_cfg : s.advance.cfg = s.cfg := rfl
@[simp] theorem State.advance_trace : s.advance.trace = s.trace := rfl
@[simp] theorem State.advance_statuses : s.advance.statuses = s.statuses := rfl
@[simp] theorem State.advance_mem : s.advance.mem = s.mem := rfl
@[simp] theorem State.advance_inputs : s.advance.inputs = s.inputs := rfl
@[simp] theorem State.advance_opIndex : s.advance.opIndex = s.opIndex := rfl
@[simp] theorem State.advance_draws : s.advance.draws = s.draws := rfl
@[simp] theorem State.advance_nDraws : s.advance.nDraws = s.nDraws := rfl

/-! ### `offer` -/

@[simp] theorem State.offer_fsm (t : Tx) : (s.offer t).fsm = s.fsm := rfl
@[simp] theorem State.offer_status (t : Tx) : (s.offer t).status = s.status := rfl
@[simp] theorem State.offer_misuse (t : Tx) : (s.offer t).misuse = s.misuse := rfl
@[simp] theorem State.offer_rstLine (t : Tx) : (s.offer t).rstLine = s.rstLine := rfl
@[simp] theorem State.offer_active (t : Tx) : (s.offer t).active = s.active := rfl
@[simp] theorem State.offer_done (t : Tx) : (s.offer t).done = s.done := rfl
@[simp] theorem State.offer_tx (t : Tx) : (s.offer t).tx = some t := rfl
@[simp] theorem State.offer_fbRd (t : Tx) : (s.offer t).fbRd = s.fbRd := rfl
@[simp] theorem State.offer_seq (t : Tx) : (s.offer t).seq = s.seq := rfl
@[simp] theorem State.offer_sync (t : Tx) : (s.offer t).sync = s.sync := rfl
@[simp] theorem State.offer_cfg (t : Tx) : (s.offer t).cfg = s.cfg := rfl
@[simp] theorem State.offer_trace (t : Tx) : (s.offer t).trace = s.trace := rfl
@[simp] theorem State.offer_statuses (t : Tx) : (s.offer t).statuses = s.statuses := rfl
@[simp] theorem State.offer_mem (t : Tx) : (s.offer t).mem = s.mem := rfl
@[simp] theorem State.offer_inputs (t : Tx) : (s.offer t).inputs = s.inputs := rfl
@[simp] theorem State.offer_opIndex (t : Tx) : (s.offer t).opIndex = s.opIndex := rfl
@[simp] theorem State.offer_draws (t : Tx) : (s.offer t).draws = s.draws := rfl
@[simp] theorem State.offer_nDraws (t : Tx) : (s.offer t).nDraws = s.nDraws := rfl

/-! ### `request` -/

@[simp] theorem State.request_fsm (a : Nat) : (s.request a).fsm = s.fsm := rfl
@[simp] theorem State.request_status (a : Nat) : (s.request a).status = s.status := rfl
@[simp] theorem State.request_misuse (a : Nat) : (s.request a).misuse = s.misuse := rfl
@[simp] theorem State.request_rstLine (a : Nat) : (s.request a).rstLine = s.rstLine := rfl
@[simp] theorem State.request_active (a : Nat) : (s.request a).active = s.active := rfl
@[simp] theorem State.request_done (a : Nat) : (s.request a).done = s.done := rfl
@[simp] theorem State.request_tx (a : Nat) : (s.request a).tx = s.tx := rfl
@[simp] theorem State.request_fbRd (a : Nat) : (s.request a).fbRd = some a := rfl
@[simp] theorem State.request_seq (a : Nat) : (s.request a).seq = s.seq := rfl
@[simp] theorem State.request_sync (a : Nat) : (s.request a).sync = s.sync := rfl
@[simp] theorem State.request_cfg (a : Nat) : (s.request a).cfg = s.cfg := rfl
@[simp] theorem State.request_trace (a : Nat) : (s.request a).trace = s.trace := rfl
@[simp] theorem State.request_statuses (a : Nat) : (s.request a).statuses = s.statuses := rfl
@[simp] theorem State.request_mem (a : Nat) : (s.request a).mem = s.mem := rfl
@[simp] theorem State.request_inputs (a : Nat) : (s.request a).inputs = s.inputs := rfl
@[simp] theorem State.request_opIndex (a : Nat) : (s.request a).opIndex = s.opIndex := rfl
@[simp] theorem State.request_draws (a : Nat) : (s.request a).draws = s.draws := rfl
@[simp] theorem State.request_nDraws (a : Nat) : (s.request a).nDraws = s.nDraws := rfl

/-! ### `take` -/

@[simp] theorem State.take_fsm (t : Tx) : (s.take t).fsm = s.fsm := rfl
@[simp] theorem State.take_status (t : Tx) : (s.take t).status = s.status := rfl
@[simp] theorem State.take_misuse (t : Tx) : (s.take t).misuse = s.misuse := rfl
@[simp] theorem State.take_rstLine (t : Tx) : (s.take t).rstLine = s.rstLine := rfl
@[simp] theorem State.take_active (t : Tx) : (s.take t).active = s.active := rfl
@[simp] theorem State.take_done (t : Tx) : (s.take t).done = s.done := rfl
@[simp] theorem State.take_tx (t : Tx) : (s.take t).tx = none := rfl
@[simp] theorem State.take_fbRd (t : Tx) : (s.take t).fbRd = s.fbRd := rfl
@[simp] theorem State.take_seq (t : Tx) : (s.take t).seq = { s.seq with index := s.seq.index + 1 } := rfl
@[simp] theorem State.take_sync (t : Tx) : (s.take t).sync = s.sync := rfl
@[simp] theorem State.take_cfg (t : Tx) : (s.take t).cfg = s.cfg := rfl
@[simp] theorem State.take_trace (t : Tx) : (s.take t).trace = s.trace ++ [t.event] := rfl
@[simp] theorem State.take_statuses (t : Tx) : (s.take t).statuses = s.statuses := rfl
@[simp] theorem State.take_mem (t : Tx) : (s.take t).mem = s.mem := rfl
@[simp] theorem State.take_inputs (t : Tx) : (s.take t).inputs = s.inputs := rfl
@[simp] theorem State.take_opIndex (t : Tx) : (s.take t).opIndex = s.opIndex := rfl
@[simp] theorem State.take_draws (t : Tx) : (s.take t).draws = s.draws := rfl
@[simp] theorem State.take_nDraws (t : Tx) : (s.take t).nDraws = s.nDraws := rfl

/-! ### `readArrives` -/

@[simp] theorem State.readArrives_fsm (a : Nat) : (s.readArrives a).fsm = s.fsm := rfl
@[simp] theorem State.readArrives_status (a : Nat) : (s.readArrives a).status = s.status := rfl
@[simp] theorem State.readArrives_misuse (a : Nat) : (s.readArrives a).misuse = s.misuse := rfl
@[simp] theorem State.readArrives_rstLine (a : Nat) : (s.readArrives a).rstLine = s.rstLine := rfl
@[simp] theorem State.readArrives_active (a : Nat) : (s.readArrives a).active = s.active := rfl
@[simp] theorem State.readArrives_done (a : Nat) : (s.readArrives a).done = s.done := rfl
@[simp] theorem State.readArrives_tx (a : Nat) :
    (s.readArrives a).tx = some (.data (px (s.memRead a) (invField s.seq.word))) := rfl
@[simp] theorem State.readArrives_fbRd (a : Nat) : (s.readArrives a).fbRd = none := rfl
@[simp] theorem State.readArrives_seq (a : Nat) : (s.readArrives a).seq = s.seq := rfl
@[simp] theorem State.readArrives_sync (a : Nat) : (s.readArrives a).sync = s.sync := rfl
@[simp] theorem State.readArrives_cfg (a : Nat) : (s.readArrives a).cfg = s.cfg := rfl
@[simp] theorem State.readArrives_trace (a : Nat) : (s.readArrives a).trace = s.trace := rfl
@[simp] theorem State.readArrives_statuses (a : Nat) : (s.readArrives a).statuses = s.statuses := rfl
@[simp] theorem State.readArrives_mem (a : Nat) : (s.readArrives a).mem = s.mem := rfl
@[simp] theorem State.readArrives_inputs (a : Nat) : (s.readArrives a).inputs = s.inputs := rfl
@[simp] theorem State.readArrives_opIndex (a : Nat) : (s.readArrives a).opIndex = s.opIndex := rfl
@[simp] theorem State.readArrives_draws (a : Nat) : (s.readArrives a).draws = s.draws := rfl
@[simp] theorem State.readArrives_nDraws (a : Nat) : (s.readArrives a).nDraws = s.nDraws := rfl

/-! ### `startDelay` -/

@[simp] theorem State.startDelay_fsm (n : Nat) : (s.startDelay n).fsm = s.fsm := rfl
@[simp] theorem State.startDelay_status (n : Nat) : (s.startDelay n).status = s.status := rfl
@[simp] theorem State.startDelay_misuse (n : Nat) : (s.startDelay n).misuse = s.misuse := rfl
@[simp] theorem State.startDelay_rstLine (n : Nat) : (s.startDelay n).rstLine = s.rstLine := rfl
@[simp] theorem State.startDelay_active (n : Nat) : (s.startDelay n).active = s.active := rfl
@[simp] theorem State.startDelay_done (n : Nat) : (s.startDelay n).done = s.done := rfl
@[simp] theorem State.startDelay_tx (n : Nat) : (s.startDelay n).tx = s.tx := rfl
@[simp] theorem State.startDelay_fbRd (n : Nat) : (s.startDelay n).fbRd = s.fbRd := rfl
@[simp] theorem State.startDelay_seq (n : Nat) : (s.startDelay n).seq = { s.seq with ms := n } := rfl
@[simp] theorem State.startDelay_sync (n : Nat) : (s.startDelay n).sync = s.sync := rfl
@[simp] theorem State.startDelay_cfg (n : Nat) : (s.startDelay n).cfg = s.cfg := rfl
@[simp] theorem State.startDelay_trace (n : Nat) : (s.startDelay n).trace = s.trace ++ [.delay n] := rfl
@[simp] theorem State.startDelay_statuses (n : Nat) : (s.startDelay n).statuses = s.statuses := rfl
@[simp] theorem State.startDelay_mem (n : Nat) : (s.startDelay n).mem = s.mem := rfl
@[simp] theorem State.startDelay_inputs (n : Nat) : (s.startDelay n).inputs = s.inputs := rfl
@[simp] theorem State.startDelay_opIndex (n : Nat) : (s.startDelay n).opIndex = s.opIndex := rfl
@[simp] theorem State.startDelay_draws (n : Nat) : (s.startDelay n).draws = s.draws := rfl
@[simp] theorem State.startDelay_nDraws (n : Nat) : (s.startDelay n).nDraws = s.nDraws := rfl

/-! ### `tick` -/

@[simp] theorem State.tick_fsm : s.tick.fsm = s.fsm := rfl
@[simp] theorem State.tick_status : s.tick.status = s.status := rfl
@[simp] theorem State.tick_misuse : s.tick.misuse = s.misuse := rfl
@[simp] theorem State.tick_rstLine : s.tick.rstLine = s.rstLine := rfl
@[simp] theorem State.tick_active : s.tick.active = s.active := rfl
@[simp] theorem State.tick_done : s.tick.done = s.done := rfl
@[simp] theorem State.tick_tx : s.tick.tx = s.tx := rfl
@[simp] theorem State.tick_fbRd : s.tick.fbRd = s.fbRd := rfl
@[simp] theorem State.tick_seq : s.tick.seq = { s.seq with ms := s.seq.ms - 1 } := rfl
@[simp] theorem State.tick_sync : s.tick.sync = s.sync := rfl
@[simp] theorem State.tick_cfg : s.tick.cfg = s.cfg := rfl
@[simp] theorem State.tick_trace : s.tick.trace = s.trace := rfl
@[simp] theorem State.tick_statuses : s.tick.statuses = s.statuses := rfl
@[simp] theorem State.tick_mem : s.tick.mem = s.mem := rfl
@[simp] theorem State.tick_inputs : s.tick.inputs = s.inputs := rfl
@[simp] theorem State.tick_opIndex : s.tick.opIndex = s.opIndex := rfl
@[simp] theorem State.tick_draws : s.tick.draws = s.draws := rfl
@[simp] theorem State.tick_nDraws : s.tick.nDraws = s.nDraws := rfl

/-! ### `wait` -/

@[simp] theorem State.wait_fsm : s.wait.fsm = s.fsm := rfl
@[simp] theorem State.wait_status : s.wait.status = s.status := rfl
@[simp] theorem State.wait_misuse : s.wait.misuse = s.misuse := rfl
@[simp] theorem State.wait_rstLine : s.wait.rstLine = s.rstLine := rfl
@[simp] theorem State.wait_active : s.wait.active = s.active := rfl
@[simp] theorem State.wait_done : s.wait.done = false := rfl
@[simp] theorem State.wait_tx : s.wait.tx = s.tx := rfl
@[simp] theorem State.wait_fbRd : s.wait.fbRd = s.fbRd := rfl
@[simp] theorem State.wait_seq : s.wait.seq = s.seq := rfl
@[simp] theorem State.wait_sync : s.wait.sync = s.sync := rfl
@[simp] theorem State.wait_cfg : s.wait.cfg = s.cfg := rfl
@[simp] theorem State.wait_trace : s.wait.trace = s.trace := rfl
@[simp] theorem State.wait_statuses : s.wait.statuses = s.statuses := rfl
@[simp] theorem State.wait_mem : s.wait.mem = s.mem := rfl
@[simp] theorem State.wait_inputs : s.wait.inputs = s.inputs := rfl
@[simp] theorem State.wait_opIndex : s.wait.opIndex = s.opIndex := rfl
@[simp] theorem State.wait_draws : s.wait.draws = s.draws := rfl
@[simp] theorem State.wait_nDraws : s.wait.nDraws = s.nDraws := rfl

end Sys2Proof.Machine
end

