-- ==== Sys2Proof/Laws/WellFormed.lean ====
section
/-! SUPPORT. What R9's check says, as facts about a configuration. -/

namespace Sys2Proof

/-- The check of R9 as the conjunction it is. -/
theorem Params.wellFormed_iff (p : Params) : p.WellFormed ↔
    1 ≤ p.width ∧ 1 ≤ p.height ∧ p.width * p.height % 8 = 0 ∧ 1 ≤ p.lutLen ∧ p.lut.length = p.lutLen ∧
    1 ≤ p.maxPolls ∧ (p.clearByte = 0x00 ∨ p.clearByte = 0xFF) ∧ p.sleepSeq ≠ [] ∧
    p.fbLen < 2 ^ p.lenBits ∧ 1 ≤ p.fbAbits := by
  unfold Params.WellFormed Params.problem
  constructor
  · intro h
    repeat' split at h
    all_goals first
      | contradiction
      | (refine ⟨by omega, by omega, by omega, by omega, by omega, by omega, by tauto, by assumption, by omega, by omega⟩)
  · rintro ⟨h1, h2, h3, h4, h5, h6, h7, h8, h9, h10⟩
    rw [if_neg (by omega), if_neg (by omega), if_neg (by omega), if_neg (by omega), if_neg (by omega),
      if_neg (by omega), if_neg (by tauto), if_neg h8, if_neg (by omega), if_neg (by omega)]

theorem Config.maxPolls_pos (c : Config) : 1 ≤ c.maxPolls :=
  ((Params.wellFormed_iff c.toParams).mp c.ok).2.2.2.2.2.1

theorem Config.lut_length (c : Config) : c.lut.length = c.lutLen :=
  ((Params.wellFormed_iff c.toParams).mp c.ok).2.2.2.2.1

/-- The framebuffer holds at least one byte. -/
theorem Config.fbLen_pos (c : Config) : 1 ≤ c.fbLen := by
  obtain ⟨hw, hh, h8, _⟩ := (Params.wellFormed_iff c.toParams).mp c.ok
  have hp : 0 < c.width * c.height := Nat.mul_pos hw hh
  unfold Params.fbLen
  omega

/-- The length operand can carry `FB_LEN`. -/
theorem Config.fbLen_lt (c : Config) : c.fbLen < 2 ^ c.lenBits :=
  ((Params.wellFormed_iff c.toParams).mp c.ok).2.2.2.2.2.2.2.2.1

end Sys2Proof
end

