-- ==== Sys2Proof/Laws/Ops.lean ====
section
/-! SUPPORT. What each shared operation over the trace, the draws and the busy line does, once. -/

namespace Sys2Proof.Machine

@[simp] theorem px_false (b : Byte) : px b false = b := rfl

@[simp] theorem px_true (b : Byte) : px b true = ~~~b := rfl

theorem Tx.event_isTransaction (t : Tx) : t.event.isTransaction = true := by cases t <;> rfl

/-! ### Sequences of transactions -/

theorem sendBytes_eq (s : State) (bs : List Byte) :
    s.sendBytes bs = { s with trace := s.trace ++ dataEvents bs } := by
  induction bs generalizing s with
  | nil => simp [State.sendBytes, dataEvents]
  | cons b bs ih => simp [State.sendBytes, ih, State.sendData, State.emit, dataEvents]

theorem sendSeq_eq (s : State) (l : List CmdEntry) :
    s.sendSeq l = { s with trace := s.trace ++ seqEvents l } := by
  induction l generalizing s with
  | nil => simp [State.sendSeq, seqEvents]
  | cons e es ih => simp [State.sendSeq, ih, sendBytes_eq, State.sendCmd, State.emit, seqEvents]

theorem resetPulse_eq (s : State) :
    s.resetPulse = { s with trace := s.trace ++ pulseEvents s.cfg, rstLine := true } := by
  simp [State.resetPulse, State.setRst, State.delayMs, State.emit, pulseEvents]

theorem loadLut_eq (s : State) : s.loadLut = { s with trace := s.trace ++ lutEvents s.cfg } := by
  simp [State.loadLut, State.sendCmd, State.emit, sendBytes_eq, lutEvents]

/-- The transactions the sequencer sends one by one are the events of the whole sequence. -/
theorem seqTransactions_event (l : List CmdEntry) : (seqTransactions l).map Tx.event = seqEvents l := by
  simp [seqTransactions, seqEvents, List.map_flatMap, dataEvents, Tx.event, Function.comp_def]

theorem lutTransactions_event (c : Config) : (lutTransactions c).map Tx.event = lutEvents c := by
  simp [lutTransactions, lutEvents, dataEvents, Tx.event, Function.comp_def]

/-! ### Draws and polls -/

theorem drawAt_succ (s t : State) (j : Nat) (hd : t.draws = s.draws) (hn : t.nDraws = s.nDraws + 1) :
    t.drawAt j = s.drawAt (j + 1) := by
  simp only [State.drawAt, hd, hn]
  rw [show s.nDraws + 1 + j = s.nDraws + (j + 1) by omega]

/-- A poll reads the next draw, whatever the flip-flops held. -/
theorem pollBusy_eq (s : State) :
    s.pollBusy = (s.drawAt 0, { s with
      sync := ⟨s.drawAt 0, s.drawAt 0⟩, nDraws := s.nDraws + 1, trace := s.trace ++ [.poll (s.drawAt 0)] }) := rfl

/-! ### The bounded wait -/

theorem readyWait_one (c : Config) : readyWait c 1 = [.poll c.busyReadyLevel] := rfl

theorem busyPolls_succ (c : Config) (n : Nat) :
    busyPolls c (n + 1) = [.poll (!c.busyReadyLevel), .delay c.pollDelayMs] ++ busyPolls c n := by
  simp [busyPolls, List.replicate_succ]

theorem level_ne_iff {a b : Level} : a ≠ b ↔ a = !b := by cases a <;> cases b <;> decide

/-- A poll that reads ready ends the wait. -/
theorem waitLoop_ready (s : State) (n : Nat) (h : s.drawAt 0 = s.cfg.busyReadyLevel) :
    s.waitLoop (n + 1) = (true, s.pollBusy.2) := by
  simp [State.waitLoop, pollBusy_eq, h]

/-- The last poll, not ready, gives up. -/
theorem waitLoop_last (s : State) (h : s.drawAt 0 ≠ s.cfg.busyReadyLevel) :
    s.waitLoop 1 = (false, s.pollBusy.2) := by
  simp [State.waitLoop, pollBusy_eq, h]

/-- Any other poll, not ready, is followed by the delay and the rest of the wait. -/
theorem waitLoop_more (s : State) (n : Nat) (h : s.drawAt 0 ≠ s.cfg.busyReadyLevel) :
    s.waitLoop (n + 2) = (s.pollBusy.2.delayMs s.cfg.pollDelayMs).waitLoop (n + 1) := by
  rw [State.waitLoop]
  simp [pollBusy_eq, h]

/-- A poll that is not ready, and the delay after it, as one change of the state. -/
theorem pollDelay_eq (s : State) (h : s.drawAt 0 ≠ s.cfg.busyReadyLevel) :
    s.pollBusy.2.delayMs s.cfg.pollDelayMs = { s with
      trace := s.trace ++ [.poll (!s.cfg.busyReadyLevel), .delay s.cfg.pollDelayMs], nDraws := s.nDraws + 1,
      sync := ⟨!s.cfg.busyReadyLevel, !s.cfg.busyReadyLevel⟩ } := by
  rw [pollBusy_eq, level_ne_iff.mp h]
  simp [State.delayMs, State.emit]

/-- All a wait with `n + 1` polls left can do: see ready at its `k`-th poll, or give up after `n + 1`. -/
theorem waitLoop_cases (n : Nat) : ∀ s : State,
    (∃ k, 1 ≤ k ∧ k ≤ n + 1 ∧ (∀ j < k - 1, s.drawAt j ≠ s.cfg.busyReadyLevel) ∧
      s.drawAt (k - 1) = s.cfg.busyReadyLevel ∧
      s.waitLoop (n + 1) = (true, { s with
        trace := s.trace ++ readyWait s.cfg k, nDraws := s.nDraws + k,
        sync := ⟨s.cfg.busyReadyLevel, s.cfg.busyReadyLevel⟩ })) ∨
    ((∀ j < n + 1, s.drawAt j ≠ s.cfg.busyReadyLevel) ∧
      s.waitLoop (n + 1) = (false, { s with
        trace := s.trace ++ (busyPolls s.cfg n ++ [.poll (!s.cfg.busyReadyLevel)]), nDraws := s.nDraws + (n + 1),
        sync := ⟨!s.cfg.busyReadyLevel, !s.cfg.busyReadyLevel⟩ })) := by
  induction n with
  | zero =>
    intro s
    by_cases h : s.drawAt 0 = s.cfg.busyReadyLevel
    · exact .inl ⟨1, le_rfl, le_rfl, by simp, h, by rw [waitLoop_ready s 0 h, pollBusy_eq, h]; rfl⟩
    · refine .inr ⟨fun j hj => by rwa [Nat.lt_one_iff.mp hj], ?_⟩
      rw [waitLoop_last s h, pollBusy_eq, level_ne_iff.mp h]; rfl
  | succ n ih =>
    intro s
    by_cases h : s.drawAt 0 = s.cfg.busyReadyLevel
    · exact .inl ⟨1, le_rfl, by omega, by simp, h, by rw [waitLoop_ready s (n + 1) h, pollBusy_eq, h]; rfl⟩
    · have hd : ∀ j, (s.pollBusy.2.delayMs s.cfg.pollDelayMs).drawAt j = s.drawAt (j + 1) :=
        fun j => drawAt_succ s _ j rfl rfl
      rw [waitLoop_more s n h]
      have ih := ih (s.pollBusy.2.delayMs s.cfg.pollDelayMs)
      simp only [hd] at ih
      rw [pollDelay_eq s h] at ih ⊢
      rcases ih with ⟨k, h1, h2, h3, h4, h5⟩ | ⟨h3, h5⟩
      · refine .inl ⟨k + 1, by omega, by omega, fun j hj => ?_, ?_, ?_⟩
        · cases j with
          | zero => exact h
          | succ j => exact h3 j (by omega)
        · rw [show k + 1 - 1 = k - 1 + 1 by omega]; exact h4
        · obtain ⟨m, rfl⟩ : ∃ m, k = m + 1 := ⟨k - 1, by omega⟩
          rw [h5]
          simp only [readyWait, Nat.add_sub_cancel, busyPolls_succ, List.append_assoc]
          rw [show s.nDraws + 1 + (m + 1) = s.nDraws + (m + 1 + 1) by omega]
      · refine .inr ⟨fun j hj => ?_, ?_⟩
        · cases j with
          | zero => exact h
          | succ j => exact h3 j (by omega)
        · rw [h5]
          simp only [busyPolls_succ, List.append_assoc]
          rw [show s.nDraws + 1 + (n + 1) = s.nDraws + (n + 1 + 1) by omega]

/-- All a wait can do: it sees ready at a poll, or never. -/
theorem waitUntilIdle_cases (s : State) :
    (∃ k, ReadyAtPoll s k ∧ s.waitUntilIdle = (true, { s with
        trace := s.trace ++ readyWait s.cfg k, nDraws := s.nDraws + k,
        sync := ⟨s.cfg.busyReadyLevel, s.cfg.busyReadyLevel⟩ })) ∨
    (NeverReady s ∧ s.waitUntilIdle = (false, { s with
        trace := s.trace ++ failedWait s.cfg, nDraws := s.nDraws + s.cfg.maxPolls,
        sync := ⟨!s.cfg.busyReadyLevel, !s.cfg.busyReadyLevel⟩ })) := by
  have hp := s.cfg.maxPolls_pos
  obtain ⟨n, hn⟩ : ∃ n, s.cfg.maxPolls = n + 1 := ⟨s.cfg.maxPolls - 1, by omega⟩
  rcases waitLoop_cases n s with ⟨k, h1, h2, h3, h4, h5⟩ | ⟨h3, h5⟩
  · exact .inl ⟨k, ⟨h1, by omega, h3, h4⟩, by rw [State.waitUntilIdle, hn, h5]⟩
  · refine .inr ⟨fun j hj => h3 j (by omega), ?_⟩
    rw [State.waitUntilIdle, hn, h5, failedWait, hn, Nat.add_sub_cancel]

/-! ### Completion and reset -/

/-- `raise` is a completion (30 R76). -/
theorem raise_eq (s : State) (st : Status) : s.raise st = s.complete st := rfl

/-- A state write of an operation that is not legal has no effect (40 R108). -/
theorem setState_of_not_legal {s : State} (h : s.seq.legal = false) (x : Fsm) : s.setState x = s := by
  simp [State.setState, h]

theorem setState_of_legal {s : State} (h : s.seq.legal = true) (x : Fsm) : s.setState x = { s with fsm := x } := by
  simp [State.setState, h]

theorem blockReset_blockReset (s : State) : s.blockReset.blockReset = s.blockReset := rfl

end Sys2Proof.Machine
end

