-- ==== Sys2Proof/Laws/PerInstr.lean ====
section
/-! SUPPORT. One law for each instruction as syntax: its words are those of its row of spec/opcode_table.json. -/

namespace Sys2Proof.Laws.TableRow

/-- The `mask` of the instruction's row: a zero bit is an operand bit. -/
def mask : Instr → Byte
  | .display _ => 0xF7
  | .init | .reset | .setlut | .clear | .sleep | .waitidle => 0xFF

/-- The `match` of the instruction's row. -/
def pattern : Instr → Byte
  | .init => 0x01
  | .reset => 0x02
  | .setlut => 0x03
  | .display _ => 0x04
  | .clear => 0x05
  | .sleep => 0x06
  | .waitidle => 0x07

/-- The instruction's word matches its row, and every word that matches the row decodes to an instruction of it. -/
def Statement (i : Instr) : Prop :=
  encode i &&& mask i = pattern i ∧
    ∀ w : Byte, w &&& mask i = pattern i → ∃ j, decode w = .instr j ∧ pattern j = pattern i

theorem init : Statement .init :=
  ⟨by decide, fun w h => ⟨.init, by revert w; decide, rfl⟩⟩

theorem reset : Statement .reset :=
  ⟨by decide, fun w h => ⟨.reset, by revert w; decide, rfl⟩⟩

theorem setlut : Statement .setlut :=
  ⟨by decide, fun w h => ⟨.setlut, by revert w; decide, rfl⟩⟩

theorem display (inv : Bool) : Statement (.display inv) :=
  ⟨by cases inv <;> decide, fun w h => ⟨.display (invField w), by
    have all : ∀ v : Byte, v &&& 0xF7 = 0x04 → decode v = .instr (.display (invField v)) := by decide
    exact all w h, rfl⟩⟩

theorem clear : Statement .clear :=
  ⟨by decide, fun w h => ⟨.clear, by revert w; decide, rfl⟩⟩

theorem sleep : Statement .sleep :=
  ⟨by decide, fun w h => ⟨.sleep, by revert w; decide, rfl⟩⟩

theorem waitidle : Statement .waitidle :=
  ⟨by decide, fun w h => ⟨.waitidle, by revert w; decide, rfl⟩⟩

end Sys2Proof.Laws.TableRow
end

