-- ==== Sys2Proof/Tests/Slice0.lean ====
section
/-! SUPPORT. The model's own tests. Expected results are those of 95_test_vectors, in the configuration TC0 of
92_eei_decisions D37; then a witness of the hypotheses of every statement that has some. -/

namespace Sys2Proof.Tests

open Sys2Proof.Machine

/-! ### TC0 and states of it -/

def tc0Params : Params where
  width := 16
  height := 2
  lutCmd := 0xA0
  lutLen := 3
  lut := [0x11, 0x22, 0x33]
  initCfg := [⟨0xC1, [0x01, 0x02]⟩, ⟨0xC2, []⟩, ⟨0xC3, [0x03]⟩]
  dtmCmd := 0xD0
  refreshCmd := 0xD1
  sleepSeq := [⟨0xE0, []⟩, ⟨0xE1, [0x5A]⟩]
  clearByte := 0xFF
  busyReadyLevel := true
  pollDelayMs := 5
  maxPolls := 3
  tRstLowMs := 2
  tRstHighMs := 20
  fbAbits := 8
  lenBits := 8

def tc0 : Config := ⟨tc0Params, by decide⟩

/-- TC0 with the busy line ready at 0, a variant of 95 section 2.6. -/
def tc0Low : Config := ⟨{ tc0Params with busyReadyLevel := false }, by decide⟩

/-- TC0 with `CLEAR_BYTE = 0x00`, a variant of 95 section 2.8. -/
def tc0Zero : Config := ⟨{ tc0Params with clearByte := 0x00 }, by decide⟩

/-- Framebuffer memory of 95: `M[0x10..0x13] = [0x00, 0x0F, 0xA5, 0xFF]`. -/
def fbMem : List Host.Cell := [(0x11, 0x0F), (0x12, 0xA5), (0x13, 0xFF)]

/-- `(fsm, misuse)` and draws, with one thing for the host to do next. -/
def boot (c : Config) (f : Fsm) (m : Bool) (draws : List Level) (input : Input) : State :=
  { State.powerOn c with fsm := f, misuse := m, draws := draws, mem := fbMem, inputs := [input] }

/-- A host word with its two operands. -/
def word (w : Byte) (base len : Nat) : Input := .word ⟨w, base, len⟩

/-- What a vector of 95 says of the state after one step: events, status, `(fsm, misuse)`, and the draws taken. -/
def seen : Host.Outcome State Fault Refusal → Option (List Event × Status × Fsm × Bool × Nat)
  | .next t => some (t.trace, t.status, t.fsm, t.misuse, t.nDraws)
  | .fault _ => none
  | .refused _ => none

/-- `RP` of 95. -/
def rp : List Event := [.setRst false, .delay 2, .setRst true, .delay 20]

/-- `CFG` of 95. -/
def cfgx : List Event := [.cmd 0xC1, .data 0x01, .data 0x02, .cmd 0xC2, .cmd 0xC3, .data 0x03]

/-- `LUTX` of 95. -/
def lutx : List Event := [.cmd 0xA0, .data 0x11, .data 0x22, .data 0x33]

/-- `TO` of 95. -/
def timedOut : List Event := [.poll false, .delay 5, .poll false, .delay 5, .poll false]

/-- `FRAME(a,b,c,d)` of 95. -/
def frame (a b c d : Byte) : List Event := [.cmd 0xD0, .data a, .data b, .data c, .data d, .cmd 0xD1]

/-! ### Well-formed configurations (95 section 2.1, 00_scope R9) -/

theorem test_fbLen_source_example : { tc0Params with width := 648, height := 480 }.fbLen = 38880 := by decide

theorem test_tc0_wellFormed : tc0Params.WellFormed ∧ tc0Params.fbLen = 4 := by decide

theorem test_zero_width_refused : { tc0Params with width := 0 }.problem = some .zeroWidth := by decide

theorem test_zero_height_refused : { tc0Params with height := 0 }.problem = some .zeroHeight := by decide

theorem test_partial_byte_refused : { tc0Params with width := 3, height := 3 }.problem = some .partialByte := by decide

theorem test_empty_lut_refused : { tc0Params with lutLen := 0 }.problem = some .emptyLut := by decide

theorem test_short_lut_refused : { tc0Params with lut := [0x11] }.problem = some .lutLength := by decide

theorem test_zero_polls_refused : { tc0Params with maxPolls := 0 }.problem = some .zeroMaxPolls := by decide

theorem test_clear_byte_refused : { tc0Params with clearByte := 0x55 }.problem = some .clearByte := by decide

theorem test_empty_sleep_refused : { tc0Params with sleepSeq := [] }.problem = some .emptySleepSeq := by decide

theorem test_length_bits_refused : { tc0Params with lenBits := 2 }.problem = some .lengthBits := by decide

theorem test_no_address_bit_refused : { tc0Params with fbAbits := 0 }.problem = some .zeroAddressBits := by decide

theorem test_ill_formed_machine_refused :
    (match powerOnParams { tc0Params with maxPolls := 0 } with
      | .refused r => decide (r = .configuration .zeroMaxPolls)
      | .next _ => false
      | .fault _ => false) = true := by decide

theorem test_instr_wellFormed : Instr.wellFormed (.display true) = true ∧ Instr.wellFormed .init = true := by decide

/-! ### Decoding (95 section 2.2, 30_encoding R70, R71) -/

theorem test_decode_init : decode 0b00000001 = .instr .init := by decide

theorem test_decode_reset : decode 0b00000010 = .instr .reset := by decide

theorem test_decode_setlut : decode 0b00000011 = .instr .setlut := by decide

theorem test_decode_display : decode 0b00000100 = .instr (.display false) ∧
    decode 0b00001100 = .instr (.display true) := by decide

theorem test_decode_clear : decode 0b00000101 = .instr .clear := by decide

theorem test_decode_sleep : decode 0b00000110 = .instr .sleep := by decide

theorem test_decode_waitidle : decode 0b00000111 = .instr .waitidle := by decide

theorem test_decode_illegal_words :
    decode 0x00 = .illegal .opZero ∧ decode 0x08 = .illegal .opZero ∧ decode 0x09 = .illegal .invOutsideDisplay ∧
    decode 0x0D = .illegal .invOutsideDisplay ∧ decode 0x0F = .illegal .invOutsideDisplay ∧
    decode 0x14 = .illegal .reservedBits ∧ decode 0x81 = .illegal .reservedBits ∧
    decode 0xFF = .illegal .reservedBits := by decide

theorem test_table_words : decodeTableWord 8 0x0C = some (.display true) ∧ decodeTableWord 8 0x08 = none ∧
    decodeTableWord 9 0x01 = none := by decide

/-! ### Steps (95 sections 2.2 to 2.9) -/

theorem test_illegal_word : seen (step (boot tc0 .uninit false [] (word 0x09 0 0))) =
    some ([], .illegal, .uninit, false, 0) := by decide

theorem test_init_ready_at_the_bound : seen (step (boot tc0 .uninit false [false, false, true] (word 0x01 0 0))) =
    some (rp ++ [.poll false, .delay 5, .poll false, .delay 5, .poll true] ++ cfgx ++ lutx, .ok, .ready, false, 3) := by
  decide

theorem test_init_timeout : seen (step (boot tc0 .ready false [false, false, false] (word 0x01 0 0))) =
    some (rp ++ timedOut, .timeout, .uninit, false, 3) := by decide

theorem test_reset_keeps_misuse : seen (step (boot tc0 .busy true [true] (word 0x02 0 0))) =
    some (rp, .ok, .uninit, true, 0) := by decide

theorem test_setlut_misuse : seen (step (boot tc0 .asleep false [] (word 0x03 0 0))) =
    some (lutx, .ok, .asleep, true, 0) := by decide

theorem test_waitidle_timeout : seen (step (boot tc0 .uninit false [false, false, false, true] (word 0x07 0 0))) =
    some (timedOut, .timeout, .uninit, false, 3) := by decide

theorem test_waitidle_ready_low : seen (step (boot tc0Low .busy false [true, false] (word 0x07 0 0))) =
    some ([.poll true, .delay 5, .poll false], .ok, .ready, false, 2) := by decide

theorem test_display_inverted : seen (step (boot tc0 .ready false [true] (word 0x0C 0x10 4))) =
    some (frame 0xFF 0xF0 0x5A 0x00 ++ [.poll true], .ok, .ready, false, 1) := by decide

theorem test_display_misuse_and_timeout :
    seen (step (boot tc0 .uninit false [false, false, false] (word 0x04 0x10 4))) =
    some (frame 0x00 0x0F 0xA5 0xFF ++ timedOut, .timeout, .uninit, true, 3) := by decide

theorem test_clear_misuse : seen (step (boot tc0 .asleep false [true] (word 0x05 0 0))) =
    some (frame 0xFF 0xFF 0xFF 0xFF ++ [.poll true], .ok, .asleep, true, 1) := by decide

theorem test_clear_zero_byte : seen (step (boot tc0Zero .ready false [true] (word 0x05 0 0))) =
    some (frame 0x00 0x00 0x00 0x00 ++ [.poll true], .ok, .ready, false, 1) := by decide

theorem test_sleep : seen (step (boot tc0 .ready false [] (word 0x06 0 0))) =
    some ([.cmd 0xE0, .cmd 0xE1, .data 0x5A], .ok, .asleep, false, 0) := by decide

theorem test_sleep_misuse : seen (step (boot tc0 .busy false [] (word 0x06 0 0))) =
    some ([.cmd 0xE0, .cmd 0xE1, .data 0x5A], .ok, .busy, true, 0) := by decide

/-- 95 section 2.10: a block reset after the first 7 events of an INIT. -/
theorem test_block_reset_inside_init :
    seen (step (boot tc0 .ready false [true] (.wordCut ⟨0x01, 0, 0⟩ 32))) =
    some (rp ++ [.poll true, .cmd 0xC1, .data 0x01], .ok, .uninit, false, 1) := by decide

/-- The word that `withFetchWord` places is the one the next step runs. -/
theorem test_withFetchWord : (match step (State.reset.withFetchWord 8 0x02) with
      | .next t => decide (t.status = .ok ∧ t.fsm = .uninit ∧ t.misuse = false ∧ t.statuses = [.ok])
      | .fault _ => false
      | .refused _ => false) = true := rfl

/-! ### Witnesses: states and operands that meet the hypotheses of the statements -/

/-- An accepted word in TC0: `reg.ACTIVE = 1`, the word and the operands latched. -/
def latched (f : Fsm) (draws : List Level) (w : Byte) (base len : Nat) : State :=
  { boot tc0 f false draws (.blockReset) with
    active := true, inputs := [], seq := { Sequencer.idle with word := w, base := base, len := len } }

/-- An idle block in TC0 that meets one thing. -/
def meets (input : Input) : State := boot tc0 .uninit false [true] input

theorem test_witness_IllegalWord : (meets (word 0x09 0 0)).active = false ∧
    (meets (word 0x09 0 0)).inputs = .word ⟨0x09, 0, 0⟩ :: [] ∧
    (0x09 : Byte) ∉ ([0x01, 0x02, 0x03, 0x04, 0x05, 0x06, 0x07, 0x0C] : List Byte) ∧
    decode 0x09 = .illegal .invOutsideDisplay := by decide

theorem test_witness_IllFormedConfiguration :
    ¬ (tc0Params.width * tc0Params.height / 8 < 2 ^ { tc0Params with lenBits := 2 }.lenBits) ∧
    ¬ (1 ≤ { tc0Params with maxPolls := 0 }.maxPolls) := by decide

/-- The parameters of 92 D37 pass every check; with three length bits `FB_LEN` still fits, at 4 of 8. -/
theorem test_witness_WellFormedConfiguration : 1 ≤ tc0Params.width ∧ 1 ≤ tc0Params.height ∧
    tc0Params.width * tc0Params.height % 8 = 0 ∧ 1 ≤ tc0Params.lutLen ∧ tc0Params.lut.length = tc0Params.lutLen ∧
    1 ≤ tc0Params.maxPolls ∧ (tc0Params.clearByte = 0x00 ∨ tc0Params.clearByte = 0xFF) ∧ tc0Params.sleepSeq ≠ [] ∧
    tc0Params.width * tc0Params.height / 8 < 2 ^ { tc0Params with lenBits := 3 }.lenBits ∧
    1 ≤ { tc0Params with fbAbits := 1 }.fbAbits := by decide

theorem test_witness_blockReset_next : (meets .blockReset).active = false ∧ (meets .blockReset).inputs = .blockReset :: [] ∧
    MeetsBlockReset (meets .blockReset) := ⟨rfl, rfl, rfl, .inl ⟨[], rfl⟩⟩

theorem test_witness_StepRuns : (meets (word 0x0C 0xFC 4)).active = false ∧
    (meets (word 0x0C 0xFC 4)).inputs = .word ⟨0x0C, 0xFC, 4⟩ :: [] ∧ decode 0x0C = .instr (.display true) ∧
    (State.powerOn tc0).active = false ∧ (State.powerOn tc0).inputs = [] := by decide

theorem test_witness_Operands : (255 : Nat) < 2 ^ (State.powerOn tc0).cfg.fbAbits ∧
    (255 : Nat) < 2 ^ (State.powerOn tc0).cfg.lenBits ∧ ∀ inv, Instr.clear ≠ .display inv := by decide

/-- The last byte of the address space, and the first address past it. -/
theorem test_witness_HostWrites : MemoryInv (meets (.write 255 0x5A)) ∧ (meets (.write 255 0x5A)).active = false ∧
    (meets (.write 255 0x5A)).inputs = .write 255 0x5A :: [] ∧ 255 < 2 ^ (meets (.write 255 0x5A)).cfg.fbAbits ∧
    MemoryInv (meets (.write 256 0x5A)) ∧ (meets (.write 256 0x5A)).inputs = .write 256 0x5A :: [] ∧
    2 ^ (meets (.write 256 0x5A)).cfg.fbAbits ≤ 256 :=
  ⟨⟨by decide, by decide⟩, rfl, rfl, by decide, ⟨by decide, by decide⟩, rfl, by decide⟩

theorem test_witness_Leftover : (meets (word 0x01 0 0)).active = false ∧
    (meets (word 0x01 0 0)).inputs = .word ⟨0x01, 0, 0⟩ :: [] ∧
    (meets (.wordByMoves ⟨0x01, 0, 0⟩)).inputs = .wordByMoves ⟨0x01, 0, 0⟩ :: [] ∧
    (meets (.wordCut ⟨0x01, 0, 0⟩ 7)).inputs = .wordCut ⟨0x01, 0, 0⟩ 7 :: [] := by decide

/-- No busy poll, the most that `MAX_POLLS = 3` allows, and one more. -/
theorem test_witness_PollCountLaw :
    (let s := latched .busy [true] 0x07 0 0;
      (∀ j < 0, s.drawAt j ≠ s.cfg.busyReadyLevel) ∧ s.drawAt 0 = s.cfg.busyReadyLevel ∧ 0 + 1 ≤ s.cfg.maxPolls) ∧
    (let s := latched .busy [false, false, true] 0x07 0 0;
      (∀ j < 2, s.drawAt j ≠ s.cfg.busyReadyLevel) ∧ s.drawAt 2 = s.cfg.busyReadyLevel ∧ 2 + 1 ≤ s.cfg.maxPolls) ∧
    (let s := latched .busy [false, false, false, true] 0x07 0 0;
      (∀ j < 3, s.drawAt j ≠ s.cfg.busyReadyLevel) ∧ s.drawAt 3 = s.cfg.busyReadyLevel ∧
        ¬ 3 + 1 ≤ s.cfg.maxPolls) := by decide

/-- A wait that sees ready at its first poll, at its last, and never: for INIT, WAITIDLE and CLEAR. -/
theorem test_witness_waits : ReadyAtPoll (latched .asleep [true] 0x01 0 0) 1 ∧
    ReadyAtPoll (latched .uninit [false, false, true] 0x01 0 0) 3 ∧
    NeverReady (latched .ready [false, false, false] 0x01 0 0) ∧ ReadyAtPoll (latched .busy [true] 0x07 0 0) 1 ∧
    ReadyAtPoll (latched .uninit [false, false, true] 0x07 0 0) 3 ∧
    NeverReady (latched .busy [false, false, false] 0x07 0 0) ∧ ReadyAtPoll (latched .ready [true] 0x05 0 0) 1 ∧
    ReadyAtPoll (latched .asleep [false, false, true] 0x05 0 0) 3 ∧
    NeverReady (latched .ready [false, false, false] 0x05 0 0) := by decide

theorem test_witness_InitEventsIgnore : let s := latched .ready [false, true] 0x01 0 0
    let u := { latched .asleep [false, true] 0x01 9 9 with misuse := true, trace := [.poll true] }
    s.cfg = u.cfg ∧ (∀ j, s.drawAt j = u.drawAt j) ∧ s ≠ u := ⟨rfl, fun _ => rfl, by decide⟩

theorem test_witness_InitWithReadyLine : let s := latched .uninit [true, true, true] 0x01 0 0
    ∀ j < s.cfg.maxPolls, s.drawAt j = s.cfg.busyReadyLevel := by decide

theorem test_witness_OnlyInitLeavesUninit : (latched .uninit [true] 0x05 0 0).fsm = .uninit ∧ Instr.clear ≠ .init ∧
    ∃ t, exec .clear (latched .uninit [true] 0x05 0 0) = .next t ∧ t.status ≠ .badlen :=
  ⟨rfl, by decide, _, rfl, by decide⟩

/-- The buffer at the bottom and at the very top of the address space, with each outcome of the wait. -/
theorem test_witness_DisplaySendsTheFrame :
    OperandsFit (latched .ready [true] 0x04 0x00 4) ∧ ReadyAtPoll (latched .ready [true] 0x04 0x00 4) 1 ∧
    OperandsFit (latched .ready [false, false, true] 0x0C 0xFC 4) ∧
    ReadyAtPoll (latched .ready [false, false, true] 0x0C 0xFC 4) 3 ∧
    OperandsFit (latched .ready [false, false, false] 0x0C 0xFC 4) ∧
    NeverReady (latched .ready [false, false, false] 0x0C 0xFC 4) := by decide

/-- A length one too small, one too large, and a buffer that ends one byte past the address space. -/
theorem test_witness_DisplayRejects : ¬ OperandsFit (latched .ready [] 0x04 0x10 3) ∧
    ¬ OperandsFit (latched .ready [] 0x04 0x10 5) ∧ ¬ OperandsFit (latched .ready [] 0x04 0xFD 4) ∧
    (latched .ready [] 0x04 0x10 3).seq.len ≠ tc0.width * tc0.height / 8 ∧
    2 ^ tc0.fbAbits < (latched .ready [] 0x04 0xFD 4).seq.base + tc0.width * tc0.height / 8 := by decide

/-- E3 of 95, at the same addresses. -/
theorem test_witness_Inverted : let s := latched .ready [true] 0x04 0x10 4
    ∀ i < s.cfg.fbLen,
      Memory.read [(0x10, 0xFF), (0x11, 0xF0), (0x12, 0x5A)] (s.seq.base + i) = ~~~(s.memRead (s.seq.base + i)) := by
  decide

theorem test_witness_ClearIsDisplay :
    let s := { latched .ready [true] 0x04 0x30 4 with mem := [(0x30, 0xFF), (0x31, 0xFF), (0x32, 0xFF), (0x33, 0xFF)] }
    OperandsFit s ∧ ∀ i < s.cfg.fbLen, s.memRead (s.seq.base + i) = s.cfg.clearByte := by decide

theorem test_witness_Asleep : (latched .asleep [true] 0x04 0x10 4).fsm = .asleep ∧
    OperandsFit (latched .asleep [true] 0x04 0x10 4) := by decide

/-- Every instruction completes in TC0, legal in one state and, where R107 has an illegal cell, a misuse in another. -/
theorem test_witness_exec (i : Instr) : (∃ t, exec i (latched .ready [true] 0x04 0x10 4) = .next t) ∧
    (∃ t, exec i (latched .uninit [true] 0x04 0x10 4) = .next t) ∧ legal .setlut .ready = false ∧
    legal .setlut .awaitLut = true ∧ legal .sleep .uninit = false ∧ legal .sleep .ready = true := by
  cases i <;> exact ⟨⟨_, rfl⟩, ⟨_, rfl⟩, by decide⟩

theorem test_witness_misuse_kept : let s := { meets (word 0x01 0 0) with misuse := true }
    s.misuse = true ∧ ∃ t, step s = .next t ∧ t.misuse = true := ⟨rfl, _, rfl, rfl⟩

theorem test_witness_Timeout : let s := latched .ready [false, false, false] 0x04 0x10 4
    ∀ i, i = .init ∨ i = .waitidle ∨ i = .clear ∨ i = .display true →
      ∃ t, exec i s = .next t ∧ t.status = .timeout := by
  rintro s i (rfl | rfl | rfl | rfl) <;> exact ⟨_, rfl, by decide⟩

theorem test_witness_ChecksAreTakenInOrder : let s := latched .uninit [false, false, false] 0x04 0x10 4
    OperandsFit s ∧ s.fsm ≠ .ready ∧ NeverReady s := by decide

/-- Memory that differs everywhere but in the buffer. -/
theorem test_witness_OnlyDisplayDependsOnMemory :
    let s := latched .ready [true] 0x04 0x10 4
    OperandsFit s ∧ (∀ j < s.cfg.fbLen, Memory.read ((0x00, 0x77) :: fbMem) (s.seq.base + j) = s.memRead (s.seq.base + j)) ∧
    Memory.read ((0x00, 0x77) :: fbMem) 0 ≠ s.memRead 0 ∧ ∃ t, exec (.display false) s = .next t :=
  ⟨by decide, by decide, by decide, _, rfl⟩

/-! ### States inside an operation -/

/-- An INIT in TC0 after `n` moves. -/
def inInit (n : Nat) : State := State.moves n ((meets (word 0x01 0 0)).start ⟨0x01, 0, 0⟩ [])

/-- A DISPLAY of the topmost buffer of TC0 after `n` moves. -/
def inDisplay (n : Nat) : State :=
  State.moves n ((boot tc0 .ready false [true] (word 0x04 0xFC 4)).start ⟨0x04, 0xFC, 4⟩ [])

/-- Idle, in the pulse of an active INIT, and with the last byte of a DISPLAY requested: the invariant holds, and a
step goes on. -/
theorem test_witness_idle_inv : MachineInv (meets (word 0x01 0 0)) ∧ ∃ t, step (meets (word 0x01 0 0)) = .next t :=
  ⟨⟨⟨by decide, by decide⟩, fun _ => ⟨rfl, rfl, rfl, by decide, rfl⟩, fun h => by cases h⟩, _, rfl⟩

theorem test_witness_init_inv : MachineInv (inInit 1) ∧ (inInit 1).rstLine = false ∧
    ∃ t, step (inInit 1) = .next t ∧ t.fsm = .awaitLut := by
  refine ⟨⟨⟨by decide, by decide⟩, fun h => absurd h (by decide), fun _ => ⟨by decide, ⟨.init, by decide, by decide,
    by decide, by decide, fun h => (nomatch h.choose_spec), fun a h => ?_⟩, by decide, by decide, by decide⟩⟩,
    by decide, _, rfl, by decide⟩
  exact absurd h (by rw [show (inInit 1).fbRd = none from by decide]; simp)

theorem test_witness_display_inv : MachineInv (inDisplay 11) ∧ ∃ t, step (inDisplay 11) = .next t ∧ t.fbRd = some 0xFF := by
  refine ⟨⟨⟨by decide, by decide⟩, fun h => absurd h (by decide), fun _ => ⟨by decide, ⟨.display false, by decide,
    by decide, by decide, by decide, fun _ => by decide, fun a h => ?_⟩, by decide, by decide, by decide⟩⟩,
    _, rfl, by decide⟩
  exact absurd h (by rw [show (inDisplay 11).fbRd = none from by decide]; simp)

/-- The steps that move the reset line: a word of RESET does not (it is high again), a move of the pulse does, and so
does a block reset where the line was low. -/
theorem test_witness_rstLine : MachineInv (inInit 0) ∧
    (∃ t, step (inInit 0) = .next t ∧ t.rstLine ≠ (inInit 0).rstLine) ∧
    (∃ t, step { meets (word 0x02 0 0) with rstLine := false } = .next t ∧ t.rstLine ≠ false) ∧
    (∃ t, step { meets .blockReset with rstLine := false } = .next t ∧ t.rstLine ≠ false) :=
  ⟨⟨⟨by decide, by decide⟩, fun h => absurd h (by decide), fun _ => ⟨by decide, ⟨.init, by decide, by decide,
    by decide, by decide, (nomatch ·.choose_spec), fun a h => absurd h (by
      rw [show (inInit 0).fbRd = none from by decide]; simp)⟩, by decide, by decide, by decide⟩⟩,
    ⟨_, rfl, by decide⟩, ⟨_, rfl, by decide⟩, ⟨_, rfl, by decide⟩⟩

theorem test_witness_notBlockReset : ¬ MeetsBlockReset (meets (word 0x01 0 0)) ∧ ¬ MeetsBlockReset (inInit 5) := by
  refine ⟨fun h => ?_, fun h => absurd h.1 (by decide)⟩
  obtain ⟨_, ⟨_, h⟩ | ⟨_, _, _, h⟩⟩ := h <;> cases h

theorem test_witness_active : (inInit 3).active = true ∧ (inInit 3).move.active = true ∧
    ((latched .ready [] 0x05 0 0).launch .clear).active = true := by decide

theorem test_witness_watched : let s := meets (.wordByMoves ⟨0x04, 0xFC, 4⟩)
    s.active = false ∧ s.inputs = .wordByMoves ⟨0x04, 0xFC, 4⟩ :: [] ∧ s.tx = none ∧ s.fbRd = none := by decide

/-- 10 R38: an INIT just accepted shows AWAIT_LUT on `fsm_state`, `op_ready = 0`, and no event yet. -/
theorem test_watched_init : ∃ t, step (boot tc0 .ready false [true] (.wordByMoves ⟨0x01, 0, 0⟩)) = .next t ∧
    t.ports.fsmState = 1 ∧ t.ports.opReady = false ∧ t.trace = [] := ⟨_, rfl, by decide⟩

theorem test_witness_sequencer : let s := latched .ready [true] 0x0C 0xFC 4
    decode s.seq.word = .instr (.display true) ∧ s.active = true ∧ s.tx = none ∧ s.fbRd = none ∧ s.seq.ms = 0 ∧
    OperandsFit s := by decide

/-- The DISPLAY of the topmost buffer, stepped: the four requests, in order, and the events of 95 section 2.7. -/
theorem test_sequencer_display : let s := boot tc0 .ready false [true] (word 0x04 0xFC 4)
    requests 20 (s.start ⟨0x04, 0xFC, 4⟩ []) = [0xFC, 0xFD, 0xFE, 0xFF] ∧
    (State.moves 20 (s.start ⟨0x04, 0xFC, 4⟩ [])).trace = frame 0 0 0 0 ++ [.poll true] := by decide

theorem test_witness_cut : let s := meets (.wordCut ⟨0x01, 0, 0⟩ 32)
    s.active = false ∧ s.inputs = .wordCut ⟨0x01, 0, 0⟩ 32 :: [] ∧ s.tx = none ∧ s.fbRd = none ∧
    (State.moves 32 (s.start ⟨0x01, 0, 0⟩ [])).active = true := by decide

/-- A move that emits a transaction: the transport takes the one that was offered. -/
theorem test_witness_transaction : (inDisplay 1).tx = some (.cmd 0xD0) ∧
    (inDisplay 1).move.trace = (inDisplay 1).trace ++ [.cmd 0xD0] := by decide

end Sys2Proof.Tests
end

section
/-! Proofs of the statements of 00_scope: which parameters the model builds a machine from (R9). -/

namespace Sys2Proof

/-- R9: parameters that fail the check are refused, with the check they fail. -/
theorem Config.ofParams_of_not_wellFormed {p : Params} (h : ¬ p.WellFormed) :
    ∃ why, Config.ofParams p = .error why := by
  unfold Config.ofParams
  split
  · exact ⟨_, rfl⟩
  · next hnone => exact absurd hnone h

/-- R9: parameters that pass the check are the configuration. -/
theorem Config.ofParams_of_wellFormed {p : Params} (h : p.WellFormed) :
    Config.ofParams p = .ok ⟨p, h⟩ := by
  unfold Config.ofParams
  split
  · next why hsome => exact absurd (h.symm.trans hsome) nofun
  · rfl

namespace Machine

theorem powerOnParams_of_not_wellFormed {p : Params} (h : ¬ p.WellFormed) :
    ∃ why, powerOnParams p = .refused (.configuration why) := by
  obtain ⟨why, hwhy⟩ := Config.ofParams_of_not_wellFormed h
  exact ⟨why, by simp only [powerOnParams, hwhy]⟩

theorem powerOnParams_of_wellFormed {p : Params} (h : p.WellFormed) :
    powerOnParams p = .next (State.powerOn ⟨p, h⟩) := by
  simp only [powerOnParams, Config.ofParams_of_wellFormed h]

/-- Settles O5: the checks of R9 are part of the model's own check, which refuses what fails it. -/
theorem illFormedConfigurationIsRefused : Obligations.IllFormedConfigurationIsRefused := by
  intro p hfail
  refine powerOnParams_of_not_wellFormed fun hwf => hfail ?_
  obtain ⟨hwidth, hheight, hbytes, hlutLen, hlut, hpolls, hclear, hsleep, hlen, -⟩ :=
    p.wellFormed_iff.mp hwf
  exact ⟨hwidth, hheight, hbytes, hlutLen, hlut, hpolls, hclear, hsleep, hlen⟩

/-- Settles O6: the checks of R9 and the address bit of R8 are the whole of the model's check. -/
theorem wellFormedConfigurationPowersOn : Obligations.WellFormedConfigurationPowersOn := by
  intro p hwidth hheight hbytes hlutLen hlut hpolls hclear hsleep hlen habits
  have hwf : p.WellFormed := p.wellFormed_iff.mpr
    ⟨hwidth, hheight, hbytes, hlutLen, hlut, hpolls, hclear, hsleep, hlen, habits⟩
  exact ⟨⟨p, hwf⟩, rfl, powerOnParams_of_wellFormed hwf⟩

end Machine
end Sys2Proof
end

section
/-! What a whole operation does: the answer of the bounded wait as one relation, `exec` of each instruction as one
equation, and from these what every operation does (its frame, its end, its status). -/

namespace Sys2Proof.Machine

/-! ### The wait -/

/-- What the next wait of `s` meets (43 R151, R152): its answer, its events and the draws it takes. -/
inductive WaitMeets (s : State) : Bool → List Event → Nat → Prop
  | ready {k : Nat} (h : ReadyAtPoll s k) : WaitMeets s true (readyWait s.cfg k) k
  | never (h : NeverReady s) : WaitMeets s false (failedWait s.cfg) s.cfg.maxPolls

/-- The level of the last poll of a wait that answers `ok`. -/
def lastLevel (c : Config) (ok : Bool) : Level := if ok then c.busyReadyLevel else !c.busyReadyLevel

/-- The status of an operation whose wait answers `ok` (43 R154). -/
def waitStatus (ok : Bool) : Status := if ok then .ok else .timeout

@[simp] theorem waitStatus_true : waitStatus true = .ok := rfl
@[simp] theorem waitStatus_false : waitStatus false = .timeout := rfl

theorem exists_waitMeets (s : State) : ∃ ok E n, WaitMeets s ok E n := by
  rcases waitUntilIdle_cases s with ⟨k, h, -⟩ | ⟨h, -⟩
  · exact ⟨_, _, _, .ready h⟩
  · exact ⟨_, _, _, .never h⟩

/-- The poll that reads ready is the first one that does. -/
theorem ReadyAtPoll.le {s : State} {k m : Nat} (hk : ReadyAtPoll s k) (hm : ReadyAtPoll s m) : k ≤ m := by
  obtain ⟨-, -, hbefore, -⟩ := hk
  obtain ⟨hpos, -, -, hready⟩ := hm
  by_contra hlt
  exact hbefore (m - 1) (by omega) hready

theorem ReadyAtPoll.unique {s : State} {k m : Nat} (hk : ReadyAtPoll s k) (hm : ReadyAtPoll s m) : k = m :=
  le_antisymm (hk.le hm) (hm.le hk)

theorem ReadyAtPoll.not_neverReady {s : State} {k : Nat} (hk : ReadyAtPoll s k) : ¬ NeverReady s := by
  obtain ⟨hpos, hle, -, hready⟩ := hk
  exact fun hnever => hnever (k - 1) (by omega) hready

/-- The wait answers, emits and draws what it meets, and nothing else changes. -/
theorem waitUntilIdle_eq {s : State} {ok : Bool} {E : List Event} {n : Nat} (h : WaitMeets s ok E n) :
    s.waitUntilIdle = (ok, { s with
      trace := s.trace ++ E, nDraws := s.nDraws + n, sync := ⟨lastLevel s.cfg ok, lastLevel s.cfg ok⟩ }) := by
  rcases waitUntilIdle_cases s with ⟨k, hk, heq⟩ | ⟨hnever, heq⟩
  · cases h with
    | ready hm => rw [heq, hk.unique hm]; rfl
    | never hn => exact absurd hn hk.not_neverReady
  · cases h with
    | ready hm => exact absurd hnever hm.not_neverReady
    | never => exact heq

/-- What a wait meets depends on the configuration and the draws alone (10 R31, 43 R151). -/
theorem WaitMeets.congr {s t : State} {ok : Bool} {E : List Event} {n : Nat} (h : WaitMeets s ok E n)
    (hcfg : t.cfg = s.cfg) (hdraws : t.draws = s.draws) (hn : t.nDraws = s.nDraws) : WaitMeets t ok E n := by
  have hdraw : ∀ j, t.drawAt j = s.drawAt j := fun j => by simp only [State.drawAt, hdraws, hn]
  cases h with
  | ready h => rw [← hcfg]; exact .ready (by simpa only [ReadyAtPoll, hdraw, hcfg] using h)
  | never h => rw [← hcfg]; exact .never (by simpa only [NeverReady, hdraw, hcfg] using h)

/-! ### The operations, one equation each -/

/-- DISPLAY's operand check decides `OperandsFit` (44 R173). -/
@[simp] theorem State.operandsFit_iff (s : State) : s.operandsFit = true ↔ OperandsFit s := by
  simp [State.operandsFit]

/-- SendFrame is its transactions, then the wait (44 R170). -/
theorem sendFrame_eq (s : State) (src : Nat → Byte) :
    s.sendFrame src = State.waitUntilIdle { s with
      trace := s.trace ++ frameEvents s.cfg ((List.range s.cfg.fbLen).map src) } := by
  simp [State.sendFrame, sendBytes_eq, State.sendCmd, State.emit, frameEvents]

section
variable {s : State} {ok : Bool} {E : List Event} {n : Nat}

/-- What DISPLAY and CLEAR share (44 R171, R174), legal or not. -/
theorem showFrame_eq (h : WaitMeets s ok E n) (src : Nat → Byte) :
    s.showFrame src = State.complete { s with
      fsm := if s.seq.legal then (if ok then .ready else .busy) else s.fsm
      trace := s.trace ++ (frameEvents s.cfg ((List.range s.cfg.fbLen).map src) ++ E)
      nDraws := s.nDraws + n
      sync := ⟨lastLevel s.cfg ok, lastLevel s.cfg ok⟩ } (waitStatus ok) := by
  rw [State.showFrame, sendFrame_eq, waitUntilIdle_eq (h.congr ?_ ?_ ?_)]
  · cases ok <;> cases hl : s.seq.legal <;>
      simp [State.afterFrame, State.setState, State.raise, State.complete, hl]
  all_goals simp

theorem exec_init_eq (h : WaitMeets s ok E n) :
    exec .init s = .next (State.complete { s with
      fsm := if ok then .ready else .uninit
      rstLine := true
      trace := s.trace ++
        (pulseEvents s.cfg ++ E ++ if ok then seqEvents s.cfg.initCfg ++ lutEvents s.cfg else [])
      nDraws := s.nDraws + n
      sync := ⟨lastLevel s.cfg ok, lastLevel s.cfg ok⟩ } (waitStatus ok)) := by
  rw [exec, execInit, resetPulse_eq, waitUntilIdle_eq (h.congr ?_ ?_ ?_)]
  · cases ok <;> simp [State.afterInitWait, State.setState, State.checkLegal, legal, sendSeq_eq, loadLut_eq,
      State.raise, State.complete]
  all_goals simp

theorem exec_reset_eq (s : State) :
    exec .reset s = .next (State.complete { s with
      fsm := .uninit, rstLine := true, trace := s.trace ++ pulseEvents s.cfg } .ok) := by
  simp [exec, execReset, resetPulse_eq, State.setState, State.checkLegal, legal, State.complete]

theorem exec_setlut_eq (s : State) :
    exec .setlut s = .next (State.complete { s with
      fsm := if s.fsm = .awaitLut then .ready else s.fsm
      misuse := s.misuse || !legal .setlut s.fsm
      trace := s.trace ++ lutEvents s.cfg } .ok) := by
  cases hf : s.fsm <;>
    simp [exec, execSetlut, loadLut_eq, State.setState, State.checkLegal, legal, State.complete, hf]

theorem exec_sleep_eq (s : State) :
    exec .sleep s = .next (State.complete { s with
      fsm := if s.fsm = .ready then .asleep else s.fsm
      misuse := s.misuse || !legal .sleep s.fsm
      trace := s.trace ++ seqEvents s.cfg.sleepSeq } .ok) := by
  cases hf : s.fsm <;>
    simp [exec, execSleep, sendSeq_eq, State.setState, State.checkLegal, legal, State.complete, hf]

theorem exec_waitidle_eq (h : WaitMeets s ok E n) :
    exec .waitidle s = .next (State.complete { s with
      fsm := if s.fsm = .busy ∧ ok = true then .ready else s.fsm
      trace := s.trace ++ E
      nDraws := s.nDraws + n
      sync := ⟨lastLevel s.cfg ok, lastLevel s.cfg ok⟩ } (waitStatus ok)) := by
  rw [exec, execWaitidle, waitUntilIdle_eq (h.congr ?_ ?_ ?_)]
  · cases ok <;> cases hf : s.fsm <;>
      simp [State.afterIdleWait, State.setState, State.checkLegal, legal, State.raise, State.complete, hf]
  all_goals simp

theorem exec_clear_eq (h : WaitMeets s ok E n) :
    exec .clear s = .next (State.complete { s with
      fsm := if s.fsm = .ready then (if ok then .ready else .busy) else s.fsm
      misuse := s.misuse || !legal .clear s.fsm
      trace := s.trace ++ (frameEvents s.cfg (List.replicate s.cfg.fbLen s.cfg.clearByte) ++ E)
      nDraws := s.nDraws + n
      sync := ⟨lastLevel s.cfg ok, lastLevel s.cfg ok⟩ } (waitStatus ok)) := by
  rw [exec, execClear, showFrame_eq (h.congr ?_ ?_ ?_)]
  · simp [State.complete, legal]
  all_goals simp

theorem frameBytes_eq (s : State) (inv : Bool) :
    frameBytes s inv = (List.range s.cfg.fbLen).map (s.frameByte inv) := rfl

theorem exec_display_eq (hfit : OperandsFit s) (h : WaitMeets s ok E n) (inv : Bool) :
    exec (.display inv) s = .next (State.complete { s with
      fsm := if s.fsm = .ready then (if ok then .ready else .busy) else s.fsm
      misuse := s.misuse || !legal (.display inv) s.fsm
      trace := s.trace ++ (frameEvents s.cfg (frameBytes s inv) ++ E)
      nDraws := s.nDraws + n
      sync := ⟨lastLevel s.cfg ok, lastLevel s.cfg ok⟩ } (waitStatus ok)) := by
  rw [exec, execDisplay, if_pos (s.operandsFit_iff.mpr hfit), showFrame_eq (h.congr ?_ ?_ ?_)]
  · simp [State.complete, legal, frameBytes_eq]
  all_goals simp

theorem exec_display_misfit (hfit : ¬ OperandsFit s) (inv : Bool) :
    exec (.display inv) s = .next (s.complete .badlen) := by
  rw [exec, execDisplay, if_neg fun h => hfit (s.operandsFit_iff.mp h), raise_eq]

end

/-! ### What every operation does -/

/-- What is true of the end `t` of every operation `i` accepted in `s`. -/
structure OpEffect (i : Instr) (s t : State) : Prop where
  /-- `t` is a completion, and only these six fields can differ from `s` before it. -/
  frame : t = State.complete { s with
    fsm := t.fsm, misuse := t.misuse, rstLine := t.rstLine, trace := t.trace, nDraws := t.nDraws, sync := t.sync }
    t.status
  fsm : t.fsm = if legal i s.fsm = true then legalEnd i s.fsm t.status else s.fsm
  misuse : t.misuse = if t.status = .badlen then s.misuse else s.misuse || !legal i s.fsm
  rstLine : t.rstLine = if i = .init ∨ i = .reset then true else s.rstLine
  trace : ∃ E, t.trace = s.trace ++ E
  noDraw : i = .reset ∨ i = .setlut ∨ i = .sleep → t.nDraws = s.nDraws ∧ t.sync = s.sync
  notIllegal : t.status ≠ .illegal
  timeout : t.status = .timeout → i = .init ∨ i = .clear ∨ i = .waitidle ∨ ∃ inv, i = .display inv
  badlen : t.status = .badlen ↔ (∃ inv, i = .display inv) ∧ ¬ OperandsFit s

/-- Every operation completes, in every state (40 R100). -/
theorem exists_exec (i : Instr) (s : State) : ∃ t, exec i s = .next t ∧ OpEffect i s t := by
  obtain ⟨ok, E, n, h⟩ := exists_waitMeets s
  cases i with
  | init =>
    refine ⟨_, exec_init_eq h, rfl, ?_, ?_, ?_, ⟨_, rfl⟩, ?_, ?_, ?_, ?_⟩ <;>
      cases ok <;> simp [legal, legalEnd]
  | reset =>
    refine ⟨_, exec_reset_eq s, rfl, ?_, ?_, ?_, ⟨_, rfl⟩, ?_, ?_, ?_, ?_⟩ <;> simp [legal, legalEnd]
  | setlut =>
    refine ⟨_, exec_setlut_eq s, rfl, ?_, ?_, ?_, ⟨_, rfl⟩, ?_, ?_, ?_, ?_⟩ <;> simp [legal, legalEnd]
  | display inv =>
    by_cases hfit : OperandsFit s
    · refine ⟨_, exec_display_eq hfit h inv, rfl, ?_, ?_, ?_, ⟨_, rfl⟩, ?_, ?_, ?_, ?_⟩ <;>
        cases ok <;> simp [legal, legalEnd, hfit]
    · refine ⟨_, exec_display_misfit hfit inv, rfl, ?_, ?_, ?_, ⟨[], by simp⟩, ?_, ?_, ?_, ?_⟩ <;>
        simp [legalEnd, hfit]
  | clear =>
    refine ⟨_, exec_clear_eq h, rfl, ?_, ?_, ?_, ⟨_, rfl⟩, ?_, ?_, ?_, ?_⟩ <;>
      cases ok <;> simp [legal, legalEnd]
  | sleep =>
    refine ⟨_, exec_sleep_eq s, rfl, ?_, ?_, ?_, ⟨_, rfl⟩, ?_, ?_, ?_, ?_⟩ <;> simp [legal, legalEnd]
  | waitidle =>
    refine ⟨_, exec_waitidle_eq h, rfl, ?_, ?_, ?_, ⟨_, rfl⟩, ?_, ?_, ?_, ?_⟩ <;>
      cases ok <;> simp [legal, legalEnd]

theorem exec_effect {i : Instr} {s t : State} (h : exec i s = .next t) : OpEffect i s t := by
  obtain ⟨u, hu, heffect⟩ := exists_exec i s
  rwa [Host.Outcome.next.inj (h.symm.trans hu)]

namespace OpEffect

variable {i : Instr} {s t : State} (h : OpEffect i s t)
include h

theorem active : t.active = false := (congrArg State.active h.frame :)
theorem done : t.done = true := (congrArg State.done h.frame :)
theorem seq : t.seq = Sequencer.idle := (congrArg State.seq h.frame :)
theorem statuses : t.statuses = s.statuses ++ [t.status] := (congrArg State.statuses h.frame :)
theorem tx : t.tx = s.tx := (congrArg State.tx h.frame :)
theorem fbRd : t.fbRd = s.fbRd := (congrArg State.fbRd h.frame :)
theorem cfg : t.cfg = s.cfg := (congrArg State.cfg h.frame :)
theorem mem : t.mem = s.mem := (congrArg State.mem h.frame :)
theorem inputs : t.inputs = s.inputs := (congrArg State.inputs h.frame :)
theorem opIndex : t.opIndex = s.opIndex := (congrArg State.opIndex h.frame :)
theorem draws : t.draws = s.draws := (congrArg State.draws h.frame :)

end OpEffect

/-- Settles O34: what `OpEffect` says of an operation's end. -/
theorem everyOperationCompletesOnce : Obligations.EveryOperationCompletesOnce := by
  intro i s
  obtain ⟨t, ht, h⟩ := exists_exec i s
  exact ⟨t, ht, h.statuses, h.done, h.active, h.notIllegal, h.timeout, h.badlen⟩

/-- Settles O37: the fields `OpEffect.frame` leaves alone. -/
theorem operationFrame : Obligations.OperationFrame := by
  intro i s t ht
  have h := exec_effect ht
  exact ⟨fun a => by rw [State.memRead, h.mem, State.memRead], h.mem, h.cfg, h.inputs, h.opIndex, h.draws, h.tx,
    h.fbRd, h.rstLine, h.noDraw⟩

/-- The bytes of a frame depend on memory at the buffer's addresses alone (20 R51). -/
theorem frameBytes_withMem {s : State} {m : List Host.Cell} (inv : Bool)
    (h : ∀ j < s.cfg.fbLen, Memory.read m (s.seq.base + j) = s.memRead (s.seq.base + j)) :
    frameBytes { s with mem := m } inv = frameBytes s inv := by
  refine List.map_congr_left fun j hj => ?_
  have hread : State.memRead { s with mem := m } (s.seq.base + j) = s.memRead (s.seq.base + j) :=
    h j (List.mem_range.mp hj)
  simp only [hread]

/-- Settles O38: the equation of each instruction reads memory in the bytes of a DISPLAY's frame alone. -/
theorem onlyDisplayDependsOnMemory : Obligations.OnlyDisplayDependsOnMemory := by
  intro i s t m ht hm
  obtain ⟨ok, E, n, h⟩ := exists_waitMeets s
  have hwait : WaitMeets { s with mem := m } ok E n := h.congr rfl rfl rfl
  cases i with
  | init => rw [exec_init_eq h] at ht; cases ht; exact exec_init_eq hwait
  | reset => rw [exec_reset_eq] at ht; cases ht; exact exec_reset_eq _
  | setlut => rw [exec_setlut_eq] at ht; cases ht; exact exec_setlut_eq _
  | display inv =>
    by_cases hfit : OperandsFit s
    · rw [exec_display_eq hfit h] at ht
      cases ht
      rw [← frameBytes_withMem inv (hm inv rfl hfit)]
      exact exec_display_eq (s := { s with mem := m }) hfit hwait inv
    · rw [exec_display_misfit hfit] at ht
      cases ht
      exact exec_display_misfit (s := { s with mem := m }) hfit inv
  | clear => rw [exec_clear_eq h] at ht; cases ht; exact exec_clear_eq hwait
  | sleep => rw [exec_sleep_eq] at ht; cases ht; exact exec_sleep_eq _
  | waitidle => rw [exec_waitidle_eq h] at ht; cases ht; exact exec_waitidle_eq hwait

end Sys2Proof.Machine
end

section
/-! What one move of the sequencer does: it goes on, or it completes the operation; at most one event either way. -/

namespace Sys2Proof.Machine

/-- The state after one poll of a wait (43 R151): its level is the next draw, and it is counted. -/
def State.polled (s : State) : State :=
  { s with
    sync := ⟨s.drawAt 0, s.drawAt 0⟩
    nDraws := s.nDraws + 1
    trace := s.trace ++ [.poll (s.drawAt 0)]
    seq := { s.seq with k := s.seq.k + 1 } }

theorem movePoll_eq (s : State) (i : Instr) :
    s.movePoll i =
      if s.drawAt 0 = s.cfg.busyReadyLevel then s.polled.afterWait true i
      else if s.seq.k + 1 = s.cfg.maxPolls then s.polled.afterWait false i
      else s.polled.goto .gap := by
  simp only [State.movePoll, pollBusy_eq]
  rfl

/-- What is true of the state `u` that a move makes of `s`, up to the completion it may end in. -/
structure GoesOn (s u : State) : Prop where
  /-- Only these seven fields can differ. -/
  frame : u = { s with
    rstLine := u.rstLine, tx := u.tx, fbRd := u.fbRd, seq := u.seq, sync := u.sync, trace := u.trace,
    nDraws := u.nDraws }
  event : ∃ E, u.trace = s.trace ++ E ∧ E.length ≤ 1 ∧
    ∀ e ∈ E, e.isTransaction = true → ∃ x, s.tx = some x ∧ x.event = e ∧ u.tx = none
  rstLine : u.rstLine = s.rstLine ∨ s.seq.phase = .pulse

/-- A move goes on, or it completes the operation. -/
inductive MoveEffect (s : State) : State → Prop
  | goesOn {u : State} (h : GoesOn s u) : MoveEffect s u
  | completes {u : State} (h : GoesOn s u) (f : Fsm) (st : Status) :
      MoveEffect s (State.complete { u with fsm := f } st)

namespace GoesOn

variable {s u : State}

/-- A change of the ports, the hidden state or the flip-flops alone. -/
theorem of_silent (hframe : u = { s with tx := u.tx, fbRd := u.fbRd, seq := u.seq, sync := u.sync }) :
    GoesOn s u where
  frame := hframe.trans (by rw [hframe])
  event := ⟨[], by rw [hframe, List.append_nil], by simp, by simp⟩
  rstLine := .inl (by rw [hframe])

/-- One event that is no transaction. -/
theorem of_event {e : Event} (he : e.isTransaction = false)
    (hframe : u = { s with
      rstLine := u.rstLine, seq := u.seq, sync := u.sync, trace := s.trace ++ [e], nDraws := u.nDraws })
    (hrst : u.rstLine = s.rstLine ∨ s.seq.phase = .pulse) : GoesOn s u where
  frame := hframe.trans (by rw [hframe])
  event := ⟨[e], by rw [hframe], by simp, by simp [he]⟩
  rstLine := hrst

theorem enter (h : GoesOn s u) (p : Phase) : GoesOn s (u.enter p) :=
  ⟨congrArg (State.enter · p) h.frame, h.event, h.rstLine⟩

theorem goto (h : GoesOn s u) (p : Phase) : GoesOn s (u.goto p) :=
  ⟨congrArg (State.goto · p) h.frame, h.event, h.rstLine⟩

theorem advance (h : GoesOn s u) : GoesOn s u.advance :=
  ⟨congrArg State.advance h.frame, h.event, h.rstLine⟩

theorem self (s : State) : GoesOn s s := of_silent rfl
theorem offer (s : State) (x : Tx) : GoesOn s (s.offer x) := of_silent rfl
theorem request (s : State) (a : Nat) : GoesOn s (s.request a) := of_silent rfl
theorem readArrives (s : State) (a : Nat) : GoesOn s (s.readArrives a) := of_silent rfl
theorem tick (s : State) : GoesOn s s.tick := of_silent rfl
theorem startDelay (s : State) (n : Nat) : GoesOn s (s.startDelay n) := of_event (e := .delay n) rfl rfl (.inl rfl)

theorem setRst (hp : s.seq.phase = .pulse) (v : Level) : GoesOn s (s.setRst v) :=
  of_event (e := .setRst v) rfl rfl (.inr hp)

theorem polled (s : State) : GoesOn s s.polled := of_event (e := .poll (s.drawAt 0)) rfl rfl (.inl rfl)

/-- The one move whose event is a transaction. -/
theorem take {x : Tx} (hx : s.tx = some x) : GoesOn s (s.take x) where
  frame := rfl
  event := ⟨[x.event], rfl, by simp, by simp [hx]⟩
  rstLine := .inl rfl

/-- The move may end in a completion, with or without a write of `reg.STATE`. -/
theorem complete (h : GoesOn s u) (st : Status) : MoveEffect s (u.complete st) := .completes h u.fsm st

theorem setState_complete (h : GoesOn s u) (x : Fsm) (st : Status) : MoveEffect s ((u.setState x).complete st) := by
  cases hl : u.seq.legal
  · rw [setState_of_not_legal hl]; exact h.complete st
  · rw [setState_of_legal hl]; exact .completes h x st

theorem afterWait (h : GoesOn s u) (ok : Bool) (i : Instr) : MoveEffect s (u.afterWait ok i) := by
  have hframe : MoveEffect s (u.afterFrame ok) := by
    cases ok
    · exact h.complete .timeout
    · exact h.setState_complete .ready .ok
  cases i with
  | init =>
    cases ok
    · exact h.setState_complete .uninit .timeout
    · exact .goesOn (h.enter .config)
  | display inv => exact hframe
  | clear => exact hframe
  | waitidle =>
    cases ok
    · exact h.complete .timeout
    · simp only [State.afterWait, State.afterIdleWait, Bool.not_true, Bool.false_eq_true, if_false]
      split
      · exact h.setState_complete .ready .ok
      · exact h.complete .ok
  | reset | setlut | sleep => exact h.complete .ok

end GoesOn

/-! ### The moves of each phase -/

theorem movePulse_effect {s : State} (hp : s.seq.phase = .pulse) (i : Instr) : MoveEffect s (s.movePulse i) := by
  unfold State.movePulse
  split
  · exact .goesOn (GoesOn.setRst hp false).advance
  · exact .goesOn (GoesOn.startDelay s _).advance
  · exact .goesOn (GoesOn.setRst hp true).advance
  · exact .goesOn (GoesOn.startDelay s _).advance
  · cases i with
    | init => exact .goesOn ((GoesOn.self s).enter .poll)
    | reset | setlut | display | clear | sleep | waitidle => exact (GoesOn.self s).complete .ok

theorem movePoll_effect (s : State) (i : Instr) : MoveEffect s (s.movePoll i) := by
  have h := GoesOn.polled s
  rw [movePoll_eq]
  split
  · exact h.afterWait true i
  · split
    · exact h.afterWait false i
    · exact .goesOn (h.goto .gap)

theorem moveList_effect {s fin : State} (hfin : MoveEffect s fin) (l : List Tx) :
    MoveEffect s (s.moveList l fin) := by
  unfold State.moveList
  split
  · exact .goesOn (GoesOn.offer s _)
  · exact hfin

theorem moveFrame_effect (s : State) (i : Instr) : MoveEffect s (s.moveFrame i) := by
  unfold State.moveFrame
  split
  · exact .goesOn (GoesOn.offer s _)
  · split
    · cases i with
      | display inv => exact .goesOn (GoesOn.request s _)
      | clear => exact .goesOn (GoesOn.offer s _)
      | init | reset | setlut | sleep | waitidle => exact (GoesOn.self s).complete .ok
    · split
      · exact .goesOn (GoesOn.offer s _)
      · exact .goesOn ((GoesOn.self s).enter .poll)

theorem movePhase_effect (s : State) (i : Instr) : MoveEffect s (s.movePhase i) := by
  have hself := GoesOn.self s
  unfold State.movePhase
  split
  · exact hself.complete .ok
  · next hp => exact movePulse_effect hp i
  · exact movePoll_effect s i
  · exact .goesOn ((GoesOn.startDelay s _).goto .poll)
  · exact moveList_effect (.goesOn (hself.enter .lut)) _
  · exact moveList_effect (hself.setState_complete .ready .ok) _
  · exact moveFrame_effect s i
  · exact moveList_effect (hself.setState_complete .asleep .ok) _

/-- All a move can do, in every state. -/
theorem move_effect (s : State) : MoveEffect s s.move := by
  unfold State.move
  split
  · next hx => exact .goesOn (GoesOn.take hx)
  · split
    · exact .goesOn (GoesOn.readArrives s _)
    · split
      · exact .goesOn (GoesOn.tick s)
      · split
        · exact movePhase_effect s _
        · exact (GoesOn.self s).complete .illegal
end Sys2Proof.Machine
end

section
/-! What a launch and a step do, and what follows for every step of every state. -/

namespace Sys2Proof.Machine

namespace MoveEffect

variable {s t : State} (h : MoveEffect s t)
include h

theorem misuse : t.misuse = s.misuse := by
  cases h with | goesOn h | completes h => exact (congrArg State.misuse h.frame :)
theorem cfg : t.cfg = s.cfg := by
  cases h with | goesOn h | completes h => exact (congrArg State.cfg h.frame :)
theorem mem : t.mem = s.mem := by
  cases h with | goesOn h | completes h => exact (congrArg State.mem h.frame :)
theorem inputs : t.inputs = s.inputs := by
  cases h with | goesOn h | completes h => exact (congrArg State.inputs h.frame :)
theorem opIndex : t.opIndex = s.opIndex := by
  cases h with | goesOn h | completes h => exact (congrArg State.opIndex h.frame :)

/-- At most one event, a transaction only as the one that stood on the port. -/
theorem event : ∃ E, t.trace = s.trace ++ E ∧ E.length ≤ 1 ∧
    ∀ e ∈ E, e.isTransaction = true → ∃ x, s.tx = some x ∧ x.event = e ∧ t.tx = none := by
  cases h with | goesOn h | completes h => exact h.event

theorem rstLine : t.rstLine = s.rstLine ∨ s.seq.phase = .pulse := by
  cases h with | goesOn h | completes h => exact h.rstLine

/-- A move that leaves the block active writes neither `reg.STATE` nor a status; another one records its status. -/
theorem registers : t.fsm = s.fsm ∧ t.status = s.status ∧ t.statuses = s.statuses ∨
    t.active = false ∧ t.statuses = s.statuses ++ [t.status] := by
  cases h with
  | goesOn h =>
    exact .inl ⟨(congrArg State.fsm h.frame :), (congrArg State.status h.frame :), (congrArg State.statuses h.frame :)⟩
  | completes h f st => exact .inr ⟨rfl, congrArg (· ++ [st]) (congrArg State.statuses h.frame :)⟩

end MoveEffect
/-- Settles O52: what `move_effect` says of a move's event. -/
theorem oneMoveEmitsAtMostOneEvent : Obligations.OneMoveEmitsAtMostOneEvent :=
  fun s => (move_effect s).event

/-- Settles O47: an active block's step is a move. -/
theorem activeBlockTakesNoWord : Obligations.ActiveBlockTakesNoWord := by
  intro s ha
  have h := move_effect s
  refine ⟨by simp [State.ports, ha], s.move, by simp [step, ha], h.inputs, h.opIndex, h.mem, ?_⟩
  rcases h.registers with ⟨-, -, hsame⟩ | ⟨-, hone⟩
  · simp [hsame]
  · simp [hone]

/-! ### Up to `n` moves -/

/-- What every move keeps, any number of moves keeps. -/
theorem moves_induction {P : State → Prop} (hmove : ∀ u, P u → P u.move) (n : Nat) {s : State} (hs : P s) :
    P (State.moves n s) := by
  induction n generalizing s with
  | zero => exact hs
  | succ n ih =>
    rw [State.moves]
    split
    · exact ih (hmove s hs)
    · exact hs

theorem moves_mem (n : Nat) (s : State) : (State.moves n s).mem = s.mem :=
  moves_induction (P := (·.mem = s.mem)) (fun u hu => (move_effect u).mem.trans hu) n rfl

theorem moves_cfg (n : Nat) (s : State) : (State.moves n s).cfg = s.cfg :=
  moves_induction (P := (·.cfg = s.cfg)) (fun u hu => (move_effect u).cfg.trans hu) n rfl

theorem moves_trace_append (n : Nat) (s : State) : ∃ E, (State.moves n s).trace = s.trace ++ E := by
  refine moves_induction (P := fun u => ∃ E, u.trace = s.trace ++ E) ?_ n ⟨[], (List.append_nil _).symm⟩
  rintro u ⟨E, hE⟩
  obtain ⟨F, hF, -⟩ := (move_effect u).event
  exact ⟨E ++ F, by rw [hF, hE, List.append_assoc]⟩

/-! ### The launch of an accepted word -/

/-- The phase an operation starts in. -/
def firstPhase : Instr → Phase
  | .init | .reset => .pulse
  | .setlut => .lut
  | .display _ | .clear => .frame
  | .sleep => .sleep
  | .waitidle => .poll

/-- The state an operation writes before its first event, if it is legal (41 R120, R124, 44 R171, R174); SETLUT, SLEEP
and WAITIDLE write none then. -/
def firstState : Instr → Fsm → Fsm
  | .init, _ => .awaitLut
  | .reset, _ => .uninit
  | .display _, _ | .clear, _ => .busy
  | .setlut, f | .sleep, f | .waitidle, f => f

/-- An operation that is not rejected starts: misuse is flagged, the first state written, the first phase entered. -/
def State.begun (s : State) (i : Instr) : State :=
  ((s.checkLegal i).setState (firstState i s.fsm)).enter (firstPhase i)

/-- A launch rejects a DISPLAY whose operands do not fit, or begins the operation (30 R78). -/
theorem launch_cases (i : Instr) (s : State) :
    ((∃ inv, i = .display inv) ∧ ¬ OperandsFit s ∧ s.launch i = s.raise .badlen) ∨
    (((∃ inv, i = .display inv) → OperandsFit s) ∧ s.launch i = s.begun i) := by
  have hkeep : ∀ j : Instr, (s.checkLegal j).setState s.fsm = s.checkLegal j := by
    intro j
    unfold State.setState
    split <;> rfl
  cases i with
  | display inv =>
    by_cases hfit : OperandsFit s
    · exact .inr ⟨fun _ => hfit, if_pos (s.operandsFit_iff.mpr hfit)⟩
    · exact .inl ⟨⟨inv, rfl⟩, hfit, if_neg (s.operandsFit_iff.not.mpr hfit)⟩
  | init | reset | clear => exact .inr ⟨nofun, rfl⟩
  | setlut | sleep | waitidle => exact .inr ⟨nofun, by simp only [State.begun, firstState, hkeep]; rfl⟩

theorem launch_of_fit {i : Instr} {s : State} (h : (∃ inv, i = .display inv) → OperandsFit s) :
    s.launch i = s.begun i := by
  rcases launch_cases i s with ⟨hi, hmisfit, -⟩ | ⟨-, heq⟩
  · exact absurd (h hi) hmisfit
  · exact heq

theorem begun_fsm (s : State) (i : Instr) :
    (s.begun i).fsm = if legal i s.fsm = true then firstState i s.fsm else s.fsm :=
  State.setState_fsm (s.checkLegal i) (firstState i s.fsm)

section
variable (i : Instr) (s : State)

@[simp] theorem launch_trace : (s.launch i).trace = s.trace := by
  rcases launch_cases i s with ⟨-, -, h⟩ | ⟨-, h⟩ <;> simp [h, State.begun]

@[simp] theorem launch_mem : (s.launch i).mem = s.mem := by
  rcases launch_cases i s with ⟨-, -, h⟩ | ⟨-, h⟩ <;> simp [h, State.begun]

@[simp] theorem launch_cfg : (s.launch i).cfg = s.cfg := by
  rcases launch_cases i s with ⟨-, -, h⟩ | ⟨-, h⟩ <;> simp [h, State.begun]

@[simp] theorem launch_rstLine : (s.launch i).rstLine = s.rstLine := by
  rcases launch_cases i s with ⟨-, -, h⟩ | ⟨-, h⟩ <;> simp [h, State.begun]

theorem launch_misuse_of_misuse (hm : s.misuse = true) : (s.launch i).misuse = true := by
  rcases launch_cases i s with ⟨-, -, h⟩ | ⟨-, h⟩ <;> simp [h, State.begun, hm]

/-- A launch keeps the statuses, or it rejects the word and records BADLEN. -/
theorem launch_registers :
    (s.launch i).status = s.status ∧ (s.launch i).statuses = s.statuses ∨
    (s.launch i).active = false ∧ (s.launch i).statuses = s.statuses ++ [(s.launch i).status] := by
  rcases launch_cases i s with ⟨-, -, h⟩ | ⟨-, h⟩
  · exact .inr (by simp [h])
  · exact .inl (by simp [h, State.begun])

end

section
variable (s : State) (op : HostOp) (rest : List Input)

theorem start_trace : (s.start op rest).trace = s.trace := by
  unfold State.start; split <;> simp

theorem start_mem : (s.start op rest).mem = s.mem := by
  unfold State.start; split <;> simp

theorem start_cfg : (s.start op rest).cfg = s.cfg := by
  unfold State.start; split <;> simp

end

/-- Settles O51: a move that leaves the block active writes no register; the launch writes the first state. -/
theorem statusIsHeldWhileActive : Obligations.StatusIsHeldWhileActive := by
  refine ⟨fun s _ hactive => ?_, fun i s _ hactive => ?_, fun s => ⟨rfl, rfl, fun hready => ⟨?_, fun inv hfit => ?_⟩⟩,
    fun i s h => ?_, fun s => ⟨rfl, rfl, rfl⟩⟩
  · rcases (move_effect s).registers with hkept | ⟨hidle, -⟩
    · exact hkept
    · exact absurd (hidle.symm.trans hactive) nofun
  · rcases launch_registers i s with ⟨hkept, -⟩ | ⟨hidle, -⟩
    · exact hkept
    · exact absurd (hidle.symm.trans hactive) nofun
  · rw [launch_of_fit (i := .clear) nofun, begun_fsm, hready]; rfl
  · rw [launch_of_fit fun _ => hfit, begun_fsm, hready]; rfl
  · rcases launch_cases i s with ⟨-, -, heq⟩ | ⟨hfit, heq⟩
    · rw [heq, State.raise_fsm]
    · rw [heq, begun_fsm]
      rcases h with rfl | rfl | rfl | hmisuse | ⟨hdisplay, hmisfit⟩
      · exact ite_self _
      · exact ite_self _
      · exact ite_self _
      · rw [hmisuse]; rfl
      · exact absurd (hfit hdisplay) hmisfit

/-! ### All a step can do -/

/-- What a step that answers `t` did, with what it met (30 R78, 10 R35, 70 R240 to R242). -/
inductive Stepped (s : State) : State → Prop
  | move (hactive : s.active = true) : Stepped s s.move
  | wait (hidle : s.active = false) (hin : s.inputs = []) : Stepped s s.wait
  | runs {op : HostOp} {rest : List Input} {i : Instr} {t : State} (hidle : s.active = false)
      (hin : s.inputs = .word op :: rest) (hi : decode op.word = .instr i)
      (ht : exec i (s.accept op rest) = .next t) : Stepped s t
  | launches {op : HostOp} {rest : List Input} {i : Instr} (hidle : s.active = false)
      (hin : s.inputs = .wordByMoves op :: rest) (hi : decode op.word = .instr i) :
      Stepped s ((s.accept op rest).launch i)
  | illegal {op : HostOp} {rest : List Input} {why : IllegalWord} (hidle : s.active = false)
      (hin : s.inputs = .word op :: rest ∨ s.inputs = .wordByMoves op :: rest)
      (hi : decode op.word = .illegal why) : Stepped s ((s.accept op rest).raise .illegal)
  | cut {op : HostOp} {n : Nat} {rest : List Input} (hidle : s.active = false)
      (hin : s.inputs = .wordCut op n :: rest) : Stepped s (s.cutWord op n rest)
  | reset {rest : List Input} (hidle : s.active = false) (hin : s.inputs = .blockReset :: rest) :
      Stepped s { s with inputs := rest }.blockReset
  | write {a : Nat} {b : Byte} {rest : List Input} (hidle : s.active = false)
      (hin : s.inputs = .write a b :: rest) (ha : a < 2 ^ s.cfg.fbAbits) :
      Stepped s { s with inputs := rest, mem := Memory.write s.mem a b, done := false }

theorem step_of_idle {s : State} (h : s.active = false) : step s = runInput s s.inputs := by
  simp [step, h]

theorem step_of_active {s : State} (h : s.active = true) : step s = .next s.move := by
  simp [step, h]

theorem step_cases {s t : State} (h : step s = .next t) : Stepped s t := by
  cases hactive : s.active with
  | true => rw [step_of_active hactive] at h; cases h; exact .move hactive
  | false =>
    rw [step_of_idle hactive] at h
    cases hin : s.inputs with
    | nil => rw [hin] at h; cases h; exact .wait hactive hin
    | cons input rest =>
      rw [hin] at h
      cases input with
      | word op =>
        simp only [runInput, runWord] at h
        split at h
        · next hi => exact .runs hactive hin hi h
        · next hi => cases h; exact .illegal hactive (.inl hin) hi
      | wordByMoves op =>
        simp only [runInput, State.start] at h
        split at h
        · next hi => cases h; exact .launches hactive hin hi
        · next hi => cases h; exact .illegal hactive (.inr hin) hi
      | wordCut op n => cases h; exact .cut hactive hin
      | blockReset => cases h; exact .reset hactive hin
      | write a b =>
        simp only [runInput, hostWrite] at h
        split at h
        · next ha => cases h; exact .write hactive hin ha
        · cases h

/-! ### What no step does -/

/-- Settles O44: a move emits at most one event, an operation its own, a cut word those of its moves. -/
theorem traceIsAppendOnly : Obligations.TraceIsAppendOnly := by
  intro s t h
  cases step_cases h with
  | move =>
    obtain ⟨E, hE, -⟩ := (move_effect s).event
    exact ⟨E, hE⟩
  | runs _ _ _ ht => exact (exec_effect ht).trace
  | @cut op n rest =>
    obtain ⟨E, hE⟩ := moves_trace_append n (s.start op rest)
    exact ⟨E, hE.trans (by rw [start_trace])⟩
  | launches => exact ⟨[], by simp⟩
  | wait | illegal | reset | write => exact ⟨[], (List.append_nil _).symm⟩

/-- Settles O45: a move, an operation, an illegal word and a rejected DISPLAY record one status each when they end. -/
theorem statusChangesOnlyAtACompletion : Obligations.StatusChangesOnlyAtACompletion := by
  intro s t h hreset
  cases step_cases h with
  | move =>
    rcases (move_effect s).registers with ⟨-, hst, hsts⟩ | ⟨-, hsts⟩
    · exact .inl ⟨hsts, hst⟩
    · exact .inr hsts
  | runs _ _ _ ht => exact .inr (exec_effect ht).statuses
  | launches =>
    rcases launch_registers _ (s.accept _ _) with ⟨hst, hsts⟩ | ⟨-, hsts⟩
    · exact .inl ⟨hsts, hst⟩
    · exact .inr hsts
  | illegal => exact .inr rfl
  | cut hidle hin => exact absurd ⟨hidle, .inr ⟨_, _, _, hin⟩⟩ hreset
  | reset hidle hin => exact absurd ⟨hidle, .inl ⟨_, hin⟩⟩ hreset
  | wait | write => exact .inl ⟨rfl, rfl⟩

/-- Settles O33: of what a step can meet, only a block reset clears the flag. -/
theorem onlyBlockResetClearsMisuse : Obligations.OnlyBlockResetClearsMisuse := by
  refine ⟨fun i s t ht => (exec_effect ht).misuse, fun s t h hm => ?_, fun s rest hidle hin => ?_, fun s => rfl⟩
  · cases step_cases h with
    | move => exact .inl ((move_effect s).misuse.trans hm)
    | runs _ _ _ ht => exact .inl (by simp [(exec_effect ht).misuse, hm])
    | launches => exact .inl (launch_misuse_of_misuse _ _ hm)
    | cut hidle hin => exact .inr ⟨hidle, .inr ⟨_, _, _, hin⟩⟩
    | reset hidle hin => exact .inr ⟨hidle, .inl ⟨_, hin⟩⟩
    | wait | illegal | write => exact .inl hm
  · exact ⟨_, by rw [step_of_idle hidle, hin]; rfl, rfl⟩

/-- Only INIT and RESET have a pulse. -/
theorem runsPhase_pulse {i : Instr} (h : runsPhase i .pulse = true) : i = .init ∨ i = .reset := by
  cases i with
  | init | reset => simp
  | setlut | display | clear | sleep | waitidle => cases h

/-- Settles O46: a move changes the line in the pulse phase alone, an operation only if it is INIT or RESET. -/
theorem onlyThePulseMovesTheResetLine : Obligations.OnlyThePulseMovesTheResetLine := by
  intro s t h hne
  cases step_cases h with
  | move hactive =>
    have hphase : s.seq.phase = .pulse := (move_effect s).rstLine.resolve_left hne
    refine .inr (.inl ⟨hactive, hphase, fun hinv => ?_⟩)
    obtain ⟨-, -, hactiveInv⟩ := hinv
    obtain ⟨-, ⟨i, hi, hruns, -⟩, -⟩ := hactiveInv hactive
    rw [hphase] at hruns
    rcases runsPhase_pulse hruns with rfl | rfl
    · exact .inl hi
    · exact .inr hi
  | @runs op rest i _ hidle hin hi ht =>
    have hpulse : i = .init ∨ i = .reset := by
      by_contra hother
      exact hne ((exec_effect ht).rstLine.trans (if_neg hother))
    refine .inr (.inr ⟨op, rest, hidle, hin, ?_⟩)
    rcases hpulse with rfl | rfl
    · exact .inl hi
    · exact .inr hi
  | cut hidle hin => exact .inl ⟨hidle, .inr ⟨_, _, _, hin⟩⟩
  | reset hidle hin => exact .inl ⟨hidle, .inl ⟨_, hin⟩⟩
  | launches => exact absurd (launch_rstLine _ _) hne
  | wait | illegal | write => exact absurd rfl hne

/-! ### Reset, codes, polls and the hidden state -/

/-- Settles O4: the codes 0 to 4 are those of the five states, and the other three are refused. -/
theorem registerCodes : Obligations.RegisterCodes := by
  refine ⟨by decide, fun f => ?_, by decide, by decide⟩
  cases f <;> rfl

/-- Settles O7: the step is `State.blockReset`, whose fields are those of R41. -/
theorem blockResetTakesRegistersToResetValues : Obligations.BlockResetTakesRegistersToResetValues := by
  refine ⟨fun c => ⟨rfl, rfl, rfl, rfl, rfl⟩, fun s rest hidle hin => ?_⟩
  have hstep : step s = .next { s with inputs := rest }.blockReset := by rw [step_of_idle hidle, hin]; rfl
  exact ⟨_, hstep, rfl, rfl, rfl, rfl, rfl, rfl, rfl, rfl, rfl, rfl, rfl, rfl, fun _ => rfl⟩

/-- Settles O11: each of the three words begins with an acceptance, which latches a new hidden state. -/
theorem leftoverSequencerStateIsUnobservable : Obligations.LeftoverSequencerStateIsUnobservable := by
  intro s op n rest q hidle hin
  rw [step_of_idle hidle, step_of_idle (s := { s with seq := q }) hidle]
  change runInput { s with seq := q } s.inputs = runInput s s.inputs
  rcases hin with hin | hin | hin <;> rw [hin] <;> rfl

/-- Settles O14: both flip-flops take the drawn level during the poll. -/
theorem pollReadsTheDrawnLevel : Obligations.PollReadsTheDrawnLevel := by
  intro s y
  rw [pollBusy_eq, pollBusy_eq]
  exact ⟨rfl, rfl, rfl, rfl⟩

end Sys2Proof.Machine
end

section
/-! The invariant of the machine: it holds at reset, and every step keeps it. -/

namespace Sys2Proof.Machine

theorem powerOn_inv (c : Config) : MachineInv (State.powerOn c) :=
  ⟨⟨rfl, rfl⟩, fun _ => ⟨rfl, rfl, rfl, nofun, rfl⟩, nofun⟩

/-- Settles O40. -/
theorem invariantHoldsAtReset : Obligations.InvariantHoldsAtReset :=
  ⟨powerOn_inv Config.chip, powerOn_inv⟩

/-! ### The invariant of an active block, by its parts -/

/-- What the launch of operation `i` establishes and no move of it changes. -/
structure Launched (i : Instr) (s : State) : Prop where
  active : s.active = true
  done : s.done = false
  word : decode s.seq.word = .instr i
  legal : i = .init → s.seq.legal = true
  fsm : i ≠ .init → s.fsm ≠ .awaitLut
  fit : (∃ inv, i = .display inv) → OperandsFit s

/-- Where in its sequence operation `i` is: the phase, and what the phase says of the line, the ports and the polls. -/
structure Position (i : Instr) (s : State) : Prop where
  phase : runsPhase i s.seq.phase = true
  read : ∀ a, s.fbRd = some a → s.seq.phase = .frame ∧ (∃ inv, i = .display inv) ∧
    s.seq.base ≤ a ∧ a < s.seq.base + s.cfg.fbLen
  line : s.rstLine = false → s.seq.phase = .pulse ∧ (s.seq.index = 1 ∨ s.seq.index = 2)
  tx : s.tx ≠ none → s.fbRd = none ∧ sendsPhase s.seq.phase = true
  polls : s.seq.phase = .poll ∨ s.seq.phase = .gap → s.seq.k < s.cfg.maxPolls

theorem activeInv_iff {s : State} (hactive : s.active = true) :
    ActiveInv s ↔ ∃ i, Launched i s ∧ Position i s := by
  constructor
  · rintro ⟨hdone, ⟨i, hword, hphase, hlegal, hfsm, hfit, hread⟩, hline, htx, hpolls⟩
    exact ⟨i, ⟨hactive, hdone, hword, hlegal, hfsm, hfit⟩, hphase, hread, hline, htx, hpolls⟩
  · rintro ⟨i, ⟨-, hdone, hword, hlegal, hfsm, hfit⟩, hphase, hread, hline, htx, hpolls⟩
    exact ⟨hdone, ⟨i, hword, hphase, hlegal, hfsm, hfit, hread⟩, hline, htx, hpolls⟩

/-- The invariant but for memory. -/
def BlockInv (s : State) : Prop := (s.active = false → IdleInv s) ∧ (s.active = true → ActiveInv s)

/-- Both ports are free. -/
def PortsFree (s : State) : Prop := s.tx = none ∧ s.fbRd = none

theorem IdleInv.blockInv {s : State} (h : IdleInv s) (hidle : s.active = false) : BlockInv s :=
  ⟨fun _ => h, fun hactive => absurd (hidle.symm.trans hactive) nofun⟩

/-- A completion with the line high and nothing on the ports leaves an idle block. -/
theorem complete_inv {s : State} (hfree : PortsFree s) (hfsm : s.fsm ≠ .awaitLut) (hline : s.rstLine = true)
    (st : Status) : BlockInv (s.complete st) :=
  IdleInv.blockInv ⟨rfl, hfree.1, hfree.2, hfsm, hline⟩ rfl

/-! ### The phases an operation goes through -/

theorem runsPhase_idle (i : Instr) : runsPhase i .idle = false := by cases i <;> rfl

theorem runsPhase_firstPhase (i : Instr) : runsPhase i (firstPhase i) = true := by cases i <;> rfl

theorem runsPhase_gap (i : Instr) : runsPhase i .gap = runsPhase i .poll := by cases i <;> rfl

theorem runsPhase_lut_of_config {i : Instr} (h : runsPhase i .config = true) : runsPhase i .lut = true := by
  cases i with
  | init => rfl
  | reset | setlut | display | clear | sleep | waitidle => cases h

theorem runsPhase_poll_of_frame {i : Instr} (h : runsPhase i .frame = true) : runsPhase i .poll = true := by
  cases i with
  | display | clear => rfl
  | init | reset | setlut | sleep | waitidle => cases h

section
variable {i : Instr} {s : State}

theorem Launched.blockInv (hl : Launched i s) (hp : Position i s) : BlockInv s :=
  ⟨fun hidle => absurd (hidle.symm.trans hl.active) nofun, fun hactive => (activeInv_iff hactive).mpr ⟨i, hl, hp⟩⟩

/-- A change of the line, the ports, the trace, the flip-flops or the place in the sequence. -/
theorem Launched.keeps (h : Launched i s) {t : State}
    (hkeep : t = { s with
      rstLine := t.rstLine, tx := t.tx, fbRd := t.fbRd, sync := t.sync, trace := t.trace, nDraws := t.nDraws,
      seq := { s.seq with phase := t.seq.phase, index := t.seq.index, k := t.seq.k, ms := t.seq.ms } }) :
    Launched i t := by
  rw [hkeep]
  exact ⟨h.active, h.done, h.word, h.legal, h.fsm, h.fit⟩

/-- AWAIT_LUT is held by an INIT alone, which is legal and so can leave it. -/
theorem Launched.legal_or_ne_awaitLut (h : Launched i s) : s.seq.legal = true ∨ s.fsm ≠ .awaitLut := by
  by_cases hi : i = .init
  · exact .inl (h.legal hi)
  · exact .inr (h.fsm hi)

/-- The last state write of an operation and its completion. -/
theorem Launched.setState_complete_inv (h : Launched i s) (hfree : PortsFree s) (hline : s.rstLine = true) (x : Fsm)
    (hx : x ≠ .awaitLut) (st : Status) : BlockInv ((s.setState x).complete st) := by
  cases hl : s.seq.legal with
  | true =>
    rw [setState_of_legal hl]
    exact complete_inv (s := { s with fsm := x }) hfree hx hline st
  | false =>
    rw [setState_of_not_legal hl]
    exact complete_inv hfree (h.legal_or_ne_awaitLut.resolve_left (by simp [hl])) hline st

theorem Position.line_high (h : Position i s) (hphase : s.seq.phase ≠ .pulse) : s.rstLine = true := by
  cases hline : s.rstLine with
  | true => rfl
  | false => exact absurd (h.line hline).1 hphase

/-- With both ports free, a position is a phase, a line and a poll count. -/
theorem Position.of_free (hfree : PortsFree s) (hphase : runsPhase i s.seq.phase = true)
    (hline : s.rstLine = false → s.seq.phase = .pulse ∧ (s.seq.index = 1 ∨ s.seq.index = 2))
    (hpolls : s.seq.phase = .poll ∨ s.seq.phase = .gap → s.seq.k < s.cfg.maxPolls) : Position i s where
  phase := hphase
  read := by simp [hfree.2]
  line := hline
  tx := by simp [hfree.1]
  polls := hpolls

theorem Position.enter (hfree : PortsFree s) (hline : s.rstLine = true) {p : Phase} (hp : runsPhase i p = true) :
    Position i (s.enter p) :=
  .of_free hfree hp (fun hlow => absurd (hline.symm.trans hlow) nofun) fun _ => s.cfg.maxPolls_pos

theorem Position.offer (h : Position i s) (hfree : PortsFree s) (hsends : sendsPhase s.seq.phase = true) (x : Tx) :
    Position i (s.offer x) where
  phase := h.phase
  read := by simp [hfree.2]
  line := h.line
  tx _ := ⟨hfree.2, hsends⟩
  polls := h.polls

/-! ### The moves of each phase -/

/-- What follows a wait, of an operation that waits. -/
theorem Launched.afterWait_inv (hl : Launched i s) (hfree : PortsFree s) (hline : s.rstLine = true)
    (hwaits : runsPhase i .poll = true) (ok : Bool) : BlockInv (s.afterWait ok i) := by
  cases i with
  | init =>
    cases ok
    · exact hl.setState_complete_inv hfree hline .uninit nofun .timeout
    · exact (hl.keeps rfl).blockInv (.enter hfree hline rfl)
  | display | clear =>
    cases ok
    · exact complete_inv hfree (hl.fsm nofun) hline .timeout
    · exact hl.setState_complete_inv hfree hline .ready nofun .ok
  | waitidle =>
    cases ok
    · exact complete_inv hfree (hl.fsm nofun) hline .timeout
    · simp only [State.afterWait, State.afterIdleWait, Bool.not_true, Bool.false_eq_true, if_false]
      split
      · exact hl.setState_complete_inv hfree hline .ready nofun .ok
      · exact complete_inv hfree (hl.fsm nofun) hline .ok
  | reset | setlut | sleep => cases hwaits

end

section
variable {i : Instr} {s : State} (hl : Launched i s) (hp : Position i s) (hfree : PortsFree s)
include hl hp hfree

theorem movePulse_inv (hphase : s.seq.phase = .pulse) : BlockInv (s.movePulse i) := by
  unfold State.movePulse
  split
  · next hindex =>
    exact (hl.keeps rfl).blockInv (.of_free hfree hp.phase (fun _ => ⟨hphase, .inl (by simp [hindex])⟩) hp.polls)
  · next hindex =>
    exact (hl.keeps rfl).blockInv (.of_free hfree hp.phase (fun _ => ⟨hphase, .inr (by simp [hindex])⟩) hp.polls)
  · exact (hl.keeps rfl).blockInv (.of_free hfree hp.phase nofun hp.polls)
  · next hindex =>
    exact (hl.keeps rfl).blockInv (.of_free hfree hp.phase (fun hlow => absurd (hp.line hlow).2 (by omega)) hp.polls)
  · next hindex =>
    have hline : s.rstLine = true := by
      by_contra hlow
      obtain ⟨-, hlast⟩ := hp.line (Bool.eq_false_of_not_eq_true hlow)
      omega
    rcases runsPhase_pulse (hphase ▸ hp.phase) with rfl | rfl
    · exact (hl.keeps rfl).blockInv (.enter hfree hline rfl)
    · exact complete_inv hfree (hl.fsm nofun) hline .ok

theorem movePoll_inv (hphase : s.seq.phase = .poll) : BlockInv (s.movePoll i) := by
  have hline : s.rstLine = true := hp.line_high (by simp [hphase])
  have hwaits : runsPhase i .poll = true := hphase ▸ hp.phase
  have hk : s.seq.k < s.cfg.maxPolls := hp.polls (.inl hphase)
  have hpolled : Launched i s.polled := hl.keeps rfl
  rw [movePoll_eq]
  split
  · exact hpolled.afterWait_inv hfree hline hwaits true
  · split
    · exact hpolled.afterWait_inv hfree hline hwaits false
    · next hmore =>
      exact (hpolled.keeps rfl).blockInv (.of_free hfree ((runsPhase_gap i).trans hwaits)
        (fun hlow => absurd (hline.symm.trans hlow) nofun) fun _ => by
          change s.seq.k + 1 < s.cfg.maxPolls
          omega)

theorem moveGap_inv (hphase : s.seq.phase = .gap) :
    BlockInv ((s.startDelay s.cfg.pollDelayMs).goto .poll) := by
  have hline : s.rstLine = true := hp.line_high (by simp [hphase])
  exact (hl.keeps rfl).blockInv (.of_free hfree ((runsPhase_gap i).symm.trans (hphase ▸ hp.phase))
    (fun hlow => absurd (hline.symm.trans hlow) nofun) fun _ => hp.polls (.inr hphase))

theorem offer_inv (hsends : sendsPhase s.seq.phase = true) (x : Tx) : BlockInv (s.offer x) :=
  (hl.keeps rfl).blockInv (hp.offer hfree hsends x)

theorem moveList_inv (hsends : sendsPhase s.seq.phase = true) (l : List Tx) {fin : State} (hfin : BlockInv fin) :
    BlockInv (s.moveList l fin) := by
  unfold State.moveList
  split
  · exact offer_inv hl hp hfree hsends _
  · exact hfin

theorem moveFrame_inv (hphase : s.seq.phase = .frame) : BlockInv (s.moveFrame i) := by
  have hline : s.rstLine = true := hp.line_high (by simp [hphase])
  have hruns : runsPhase i .frame = true := hphase ▸ hp.phase
  have hoffer := offer_inv hl hp hfree (by rw [hphase]; rfl)
  unfold State.moveFrame
  split
  · exact hoffer _
  · next j hindex =>
    split
    · next hj =>
      cases i with
      | display inv =>
        exact (hl.keeps rfl).blockInv
          { phase := hp.phase
            read := fun a ha => by
              obtain rfl : s.seq.base + j = a := Option.some.inj ha
              exact ⟨hphase, ⟨inv, rfl⟩, Nat.le_add_right _ _, Nat.add_lt_add_left hj _⟩
            line := hp.line
            tx := fun hx => absurd hfree.1 hx
            polls := hp.polls }
      | clear => exact hoffer _
      | init | reset | setlut | sleep | waitidle => cases hruns
    · split
      · exact hoffer _
      · exact (hl.keeps rfl).blockInv (.enter hfree hline (runsPhase_poll_of_frame hruns))

theorem movePhase_inv : BlockInv (s.movePhase i) := by
  unfold State.movePhase
  split
  · next hphase => exact absurd (hphase ▸ hp.phase) (by simp [runsPhase_idle])
  · next hphase => exact movePulse_inv hl hp hfree hphase
  · next hphase => exact movePoll_inv hl hp hfree hphase
  · next hphase => exact moveGap_inv hl hp hfree hphase
  · next hphase =>
    have hline := hp.line_high (by simp [hphase])
    exact moveList_inv hl hp hfree (by rw [hphase]; rfl) _
      ((hl.keeps rfl).blockInv (.enter hfree hline (runsPhase_lut_of_config (hphase ▸ hp.phase))))
  · next hphase =>
    exact moveList_inv hl hp hfree (by rw [hphase]; rfl) _
      (hl.setState_complete_inv hfree (hp.line_high (by simp [hphase])) .ready nofun .ok)
  · next hphase => exact moveFrame_inv hl hp hfree hphase
  · next hphase =>
    exact moveList_inv hl hp hfree (by rw [hphase]; rfl) _
      (hl.setState_complete_inv hfree (hp.line_high (by simp [hphase])) .asleep nofun .ok)

end

/-! ### Moves, launches and steps -/

theorem ne_pulse_of_sendsPhase {p : Phase} (h : sendsPhase p = true) : p ≠ .pulse := by
  rintro rfl; cases h

theorem move_inv {s : State} (hactive : s.active = true) (hinv : ActiveInv s) : BlockInv s.move := by
  obtain ⟨i, hl, hp⟩ := (activeInv_iff hactive).mp hinv
  unfold State.move
  split
  · next x hx =>
    obtain ⟨hread, hsends⟩ := hp.tx (by simp [hx])
    have hline := hp.line_high (ne_pulse_of_sendsPhase hsends)
    exact (hl.keeps rfl).blockInv (.of_free ⟨rfl, hread⟩ hp.phase
      (fun hlow => absurd (hline.symm.trans hlow) nofun) hp.polls)
  · next hx =>
    split
    · next a ha =>
      obtain ⟨hphase, -⟩ := hp.read a ha
      exact (hl.keeps rfl).blockInv
        { phase := hp.phase
          read := nofun
          line := hp.line
          tx := fun _ => ⟨rfl, by rw [State.readArrives_seq, hphase]; rfl⟩
          polls := hp.polls }
    · next ha =>
      split
      · exact (hl.keeps rfl).blockInv ⟨hp.phase, hp.read, hp.line, hp.tx, hp.polls⟩
      · rw [hl.word]
        exact movePhase_inv hl hp ⟨hx, ha⟩

theorem firstState_ne_awaitLut {i : Instr} {f : Fsm} (hi : i ≠ .init) (hf : f ≠ .awaitLut) :
    firstState i f ≠ .awaitLut := by
  cases i with
  | init => exact absurd rfl hi
  | setlut | sleep | waitidle => exact hf
  | reset | display | clear => nofun

theorem legalEnd_ne_awaitLut {f : Fsm} (hf : f ≠ .awaitLut) (i : Instr) (st : Status) :
    legalEnd i f st ≠ .awaitLut := by
  cases i with
  | reset | setlut | sleep => nofun
  | init | clear => simp only [legalEnd]; split <;> nofun
  | waitidle =>
    simp only [legalEnd]
    split
    · nofun
    · exact hf
  | display =>
    simp only [legalEnd]
    split
    · nofun
    · split
      · nofun
      · exact hf

theorem begun_operandsFit {i : Instr} {s : State} : OperandsFit (s.begun i) ↔ OperandsFit s := by
  simp [OperandsFit, State.begun]

theorem accept_portsFree {s : State} (h : IdleInv s) (op : HostOp) (rest : List Input) :
    PortsFree (s.accept op rest) := by
  obtain ⟨-, htx, hread, -, -⟩ := h
  exact ⟨htx, hread⟩

/-- The launch of a legal word at an idle block. -/
theorem launch_inv {s : State} (h : IdleInv s) {op : HostOp} {i : Instr} (hi : decode op.word = .instr i)
    (rest : List Input) : BlockInv ((s.accept op rest).launch i) := by
  have hfree := accept_portsFree h op rest
  obtain ⟨-, -, -, hfsm, hline⟩ := h
  rcases launch_cases i (s.accept op rest) with ⟨-, -, heq⟩ | ⟨hfit, heq⟩
  · rw [heq]
    exact complete_inv hfree hfsm hline .badlen
  · rw [heq]
    refine Launched.blockInv (i := i) ⟨?_, ?_, ?_, ?_, ?_, ?_⟩
      (.enter (by simpa [PortsFree] using hfree) (by simpa using hline) (runsPhase_firstPhase i))
    · simp [State.begun]
    · simp [State.begun]
    · simpa [State.begun] using hi
    · rintro rfl
      simp [State.begun, legal]
    · intro hother
      rw [begun_fsm]
      split
      · exact firstState_ne_awaitLut hother hfsm
      · exact hfsm
    · exact fun hdisplay => begun_operandsFit.mpr (hfit hdisplay)

/-- A whole operation leaves an idle block. -/
theorem exec_inv {s t : State} (h : IdleInv s) {op : HostOp} {rest : List Input} {i : Instr}
    (ht : exec i (s.accept op rest) = .next t) : BlockInv t := by
  have heffect := exec_effect ht
  obtain ⟨-, htx, hread, hfsm, hline⟩ := h
  refine IdleInv.blockInv ⟨heffect.seq, heffect.tx.trans htx, heffect.fbRd.trans hread, ?_, ?_⟩ heffect.active
  · rw [heffect.fsm]
    split
    · exact legalEnd_ne_awaitLut hfsm i t.status
    · exact hfsm
  · rw [heffect.rstLine]
    split
    · rfl
    · exact hline

theorem MemoryInv.of_same {s t : State} (h : MemoryInv s) (hmem : t.mem = s.mem) (hcfg : t.cfg = s.cfg) :
    MemoryInv t := by
  rwa [MemoryInv, hmem, hcfg]

/-- Settles O41: an active block keeps its invariant by `move_inv`; an idle one begins or ends an operation, is reset,
or has its memory written, which keeps the canonical form. -/
theorem everyStepKeepsTheInvariant : Obligations.EveryStepKeepsTheInvariant := by
  intro s t ⟨hmem, hidleInv, hactiveInv⟩ h
  cases step_cases h with
  | move hactive =>
    exact ⟨hmem.of_same (move_effect s).mem (move_effect s).cfg, move_inv hactive (hactiveInv hactive)⟩
  | wait hidle => exact ⟨hmem, IdleInv.blockInv (hidleInv hidle) hidle⟩
  | runs hidle _ _ ht =>
    exact ⟨hmem.of_same (exec_effect ht).mem (exec_effect ht).cfg, exec_inv (hidleInv hidle) ht⟩
  | launches hidle _ hi => exact ⟨hmem.of_same (by simp) (by simp), launch_inv (hidleInv hidle) hi _⟩
  | illegal hidle =>
    have hfree := accept_portsFree (hidleInv hidle)
    obtain ⟨-, -, -, hfsm, hline⟩ := hidleInv hidle
    exact ⟨hmem, complete_inv (hfree _ _) hfsm hline .illegal⟩
  | cut =>
    exact ⟨hmem.of_same ((moves_mem _ _).trans (start_mem _ _ _)) ((moves_cfg _ _).trans (start_cfg _ _ _)),
      IdleInv.blockInv ⟨rfl, rfl, rfl, nofun, rfl⟩ rfl⟩
  | reset => exact ⟨hmem, IdleInv.blockInv ⟨rfl, rfl, rfl, nofun, rfl⟩ rfl⟩
  | @write a b rest hidle _ ha =>
    obtain ⟨hwf, hwithin⟩ := hmem
    exact ⟨⟨Memory.write_wf hwf a b, Memory.write_within ha b hwithin⟩, IdleInv.blockInv (hidleInv hidle) hidle⟩

end Sys2Proof.Machine
end

section
/-! Runs of moves: from one resting point of an operation to the next, with the framebuffer addresses requested on
the way. -/

namespace Sys2Proof.Machine

/-- Moves of an active block that lead from the first state to the second and request these addresses on the read
port, in this order (10 R35, 20 R56). -/
inductive Runs : State → List Nat → State → Prop
  | refl (s : State) : Runs s [] s
  | quiet {s t : State} {as : List Nat} (hactive : s.active = true) (hread : s.move.fbRd = none)
      (h : Runs s.move as t) : Runs s as t
  | request {s t : State} {a : Nat} {as : List Nat} (hactive : s.active = true) (htx : s.tx = none)
      (hfree : s.fbRd = none) (hread : s.move.fbRd = some a) (h : Runs s.move as t) : Runs s (a :: as) t

namespace Runs

variable {s t u : State} {as bs : List Nat}

theorem trans (h : Runs s as t) (h' : Runs t bs u) : Runs s (as ++ bs) u := by
  induction h with
  | refl => exact h'
  | quiet hactive hread _ ih => exact .quiet hactive hread (ih h')
  | request hactive htx hfree hread _ ih => exact .request hactive htx hfree hread (ih h')

/-- One move after which nothing stands on the read port. -/
theorem move_quiet (hmove : s.move = t) (hactive : s.active = true) (hread : t.fbRd = none) : Runs s [] t := by
  subst hmove
  exact .quiet hactive hread (.refl _)

/-- A run is so many moves, and the requests are those that `requests` sees in them. -/
theorem exists_moves (h : Runs s as t) : ∃ n, State.moves n s = t ∧ requests n s = as := by
  induction h with
  | refl => exact ⟨0, rfl, rfl⟩
  | quiet hactive hread _ ih =>
    obtain ⟨n, hmoves, hrequests⟩ := ih
    exact ⟨n + 1, by simp [State.moves, hactive, hmoves], by simp [requests, hactive, hread, hrequests]⟩
  | request hactive htx hfree hread _ ih =>
    obtain ⟨n, hmoves, hrequests⟩ := ih
    exact ⟨n + 1, by simp [State.moves, hactive, hmoves],
      by simp [requests, hactive, htx, hfree, hread, hrequests]⟩

end Runs

/-- A resting point of operation `i`: it is active, with nothing offered, requested or being delayed. -/
structure Resting (i : Instr) (s : State) : Prop where
  active : s.active = true
  word : decode s.seq.word = .instr i
  tx : s.tx = none
  fbRd : s.fbRd = none
  ms : s.seq.ms = 0

/-- The state in which a transaction of the phase has been taken: its event, and the next index (10 R35). -/
def State.sent (s : State) (x : Tx) : State := (s.emit x.event).advance

namespace Resting

variable {i : Instr} {s : State} (h : Resting i s)
include h

theorem move_eq : s.move = s.movePhase i := by
  simp [State.move, h.tx, h.fbRd, h.ms, h.word]

theorem sent (x : Tx) : Resting i (s.sent x) := ⟨h.active, h.word, h.tx, h.fbRd, h.ms⟩

theorem begun : Resting i (s.begun i) := by
  constructor <;> simp [State.begun, h.active, h.word, h.tx, h.fbRd, h.ms]

theorem take_offer (x : Tx) : (s.offer x).take x = s.sent x := by
  have htx : { s with tx := none } = s := by rw [← h.tx]
  change State.advance (State.emit { s with tx := none } x.event) = s.sent x
  rw [htx]
  rfl

/-- An offered transaction is taken in the next move. -/
theorem runs_of_offered (x : Tx) : Runs (s.offer x) [] (s.sent x) :=
  .move_quiet (h.take_offer x) h.active h.fbRd

/-- A phase that offers a transaction sends it. -/
theorem runs_of_offer {x : Tx} (hmove : s.movePhase i = s.offer x) : Runs s [] (s.sent x) :=
  .trans (.move_quiet (h.move_eq.trans hmove) h.active h.fbRd) (h.runs_of_offered x)

/-- A phase that requests a byte sends what memory holds there, as `Px` (44 R171). -/
theorem runs_of_request {a : Nat} (hmove : s.movePhase i = s.request a) :
    Runs s [a] (s.sent (.data (px (s.memRead a) (invField s.seq.word)))) := by
  have hrequest : s.move = s.request a := h.move_eq.trans hmove
  have harrives : (s.request a).move = s.offer (.data (px (s.memRead a) (invField s.seq.word))) := by
    have hfbRd : { s with fbRd := none } = s := by rw [← h.fbRd]
    have hread : (s.request a).move = (s.request a).readArrives a := by simp [State.move, h.tx]
    rw [hread]
    change State.offer { s with fbRd := none } _ = _
    rw [hfbRd]
    rfl
  refine .request h.active h.tx h.fbRd (congrArg State.fbRd hrequest) ?_
  rw [hrequest]
  exact .trans (.move_quiet harrives h.active h.fbRd) (h.runs_of_offered _)

end Resting

/-! ### The wait, move by move -/

/-- The poll counter of the wait at `k` (43 R151). -/
def State.counted (s : State) (k : Nat) : State := { s with seq := { s.seq with k := k } }

theorem polled_eq (s : State) : s.polled = s.pollBusy.2.counted (s.seq.k + 1) := by
  rw [pollBusy_eq]; rfl

theorem delayMs_counted (s : State) (k n : Nat) : (s.counted k).delayMs n = (s.delayMs n).counted k := rfl

/-- A wait reads and writes nothing of the hidden sequencer state. -/
theorem waitLoop_counted (n : Nat) (s : State) (k : Nat) :
    (s.counted k).waitLoop n = ((s.waitLoop n).1, (s.waitLoop n).2.counted k) := by
  induction n generalizing s with
  | zero => rfl
  | succ n ih =>
    by_cases h : s.drawAt 0 = s.cfg.busyReadyLevel
    · rw [waitLoop_ready s n h, waitLoop_ready (s.counted k) n h]; rfl
    · cases n with
      | zero => rw [waitLoop_last s h, waitLoop_last (s.counted k) h]; rfl
      | succ n =>
        rw [waitLoop_more s n h, waitLoop_more (s.counted k) n h]
        exact ih (s.pollBusy.2.delayMs s.cfg.pollDelayMs)

theorem afterWait_fbRd (s : State) (ok : Bool) (i : Instr) : (s.afterWait ok i).fbRd = s.fbRd := by
  cases i with
  | init | display | clear => cases ok <;> simp [State.afterWait, State.afterFrame]
  | waitidle =>
    cases ok
    · simp [State.afterWait, State.afterIdleWait]
    · simp only [State.afterWait, State.afterIdleWait, Bool.not_true, Bool.false_eq_true, if_false]
      split <;> simp
  | reset | setlut | sleep => simp [State.afterWait]

theorem afterFrame_active (s : State) (ok : Bool) : (s.afterFrame ok).active = false := by
  cases ok <;> simp [State.afterFrame]

/-- A delay in progress runs out (60 R212). -/
theorem runs_ticks (n : Nat) {s : State} (hactive : s.active = true) (htx : s.tx = none) (hfbRd : s.fbRd = none)
    (hms : s.seq.ms = n) : Runs s [] { s with seq := { s.seq with ms := 0 } } := by
  induction n generalizing s with
  | zero => rw [← hms]; exact .refl s
  | succ n ih =>
    have htick : s.move = s.tick := by simp [State.move, htx, hfbRd, hms]
    exact .trans (.move_quiet htick hactive hfbRd) (ih (s := s.tick) hactive htx hfbRd (by simp [hms]))

namespace Resting

variable {i : Instr} {s : State}

/-- The delay between two polls (43 R151): its event, its milliseconds, and the next poll. -/
theorem runs_gap (h : Resting i s) (hphase : s.seq.phase = .poll) :
    Runs (s.goto .gap) [] (s.delayMs s.cfg.pollDelayMs) := by
  have hgap : Resting i (s.goto .gap) := ⟨h.active, h.word, h.tx, h.fbRd, h.ms⟩
  have hmove : (s.goto .gap).move = (s.startDelay s.cfg.pollDelayMs).goto .poll := hgap.move_eq
  have hend : { (s.startDelay s.cfg.pollDelayMs).goto .poll with
      seq := { ((s.startDelay s.cfg.pollDelayMs).goto .poll).seq with ms := 0 } } =
      s.delayMs s.cfg.pollDelayMs := by
    rw [← h.ms, ← hphase]; rfl
  rw [← hend]
  exact .trans (.move_quiet hmove h.active h.fbRd) (runs_ticks _ h.active h.tx h.fbRd rfl)

/-- One poll (43 R151): it ends the wait, or the delay comes next. -/
theorem move_poll (h : Resting i s) (hphase : s.seq.phase = .poll) :
    s.move =
      if s.drawAt 0 = s.cfg.busyReadyLevel then s.polled.afterWait true i
      else if s.seq.k + 1 = s.cfg.maxPolls then s.polled.afterWait false i
      else s.polled.goto .gap := by
  rw [h.move_eq, ← movePoll_eq, State.movePhase, hphase]

/-- The poll that ends the wait, and what follows the wait, are one move (log 21). -/
theorem runs_lastPoll (h : Resting i s) {ok : Bool} (hmove : s.move = s.polled.afterWait ok i) :
    Runs s [] ((s.pollBusy.2.counted (s.seq.k + 1)).afterWait ok i) := by
  have hrun : Runs s [] (s.polled.afterWait ok i) :=
    .move_quiet hmove h.active ((afterWait_fbRd _ _ _).trans h.fbRd)
  rwa [polled_eq] at hrun

/-- From a poll on, the moves make the rest of the wait and what follows it; `k` is what the counter ends at. -/
theorem runs_wait (n : Nat) (h : Resting i s) (hphase : s.seq.phase = .poll)
    (hpolls : s.seq.k + (n + 1) = s.cfg.maxPolls) :
    ∃ k, Runs s [] (((s.waitLoop (n + 1)).2.counted k).afterWait (s.waitLoop (n + 1)).1 i) := by
  induction n generalizing s with
  | zero =>
    refine ⟨s.seq.k + 1, ?_⟩
    by_cases hready : s.drawAt 0 = s.cfg.busyReadyLevel
    · rw [waitLoop_ready s 0 hready]
      exact h.runs_lastPoll (by rw [h.move_poll hphase, if_pos hready])
    · rw [waitLoop_last s hready]
      exact h.runs_lastPoll (by rw [h.move_poll hphase, if_neg hready, if_pos hpolls])
  | succ n ih =>
    by_cases hready : s.drawAt 0 = s.cfg.busyReadyLevel
    · rw [waitLoop_ready s (n + 1) hready]
      exact ⟨s.seq.k + 1, h.runs_lastPoll (by rw [h.move_poll hphase, if_pos hready])⟩
    · have hmore : s.move = s.polled.goto .gap := by
        rw [h.move_poll hphase, if_neg hready, if_neg (by omega)]
      have hpolled : Resting i s.polled := ⟨h.active, h.word, h.tx, h.fbRd, h.ms⟩
      have hgap : Runs s [] (s.polled.delayMs s.cfg.pollDelayMs) :=
        .trans (.move_quiet hmore h.active h.fbRd) (hpolled.runs_gap hphase)
      have hcount : s.seq.k + 1 + (n + 1) = s.cfg.maxPolls := by omega
      obtain ⟨k, hrest⟩ := ih (s := s.polled.delayMs s.cfg.pollDelayMs)
        ⟨h.active, h.word, h.tx, h.fbRd, h.ms⟩ hphase hcount
      have hrun := hgap.trans hrest
      rw [polled_eq, delayMs_counted, waitLoop_counted] at hrun
      rw [waitLoop_more s n hready]
      exact ⟨k, hrun⟩

end Resting

end Sys2Proof.Machine
end

section
/-! Proofs of the statements of 20_memory: host writes, the frame of a DISPLAY, and the addresses it requests. -/

namespace Sys2Proof.Machine

/-! ### The host's writes -/

theorem step_of_write {s : State} {a : Nat} {b : Byte} {rest : List Input} (hidle : s.active = false)
    (hin : s.inputs = .write a b :: rest) : step s = hostWrite s a b rest := by
  rw [step_of_idle hidle, hin, runInput]

/-- Settles O10: the write is `Memory.write`, which in canonical memory reads back and changes no other address. -/
theorem hostWritesFramebufferMemory : Obligations.HostWritesFramebufferMemory := by
  intro s a b rest hmem hidle hin
  obtain ⟨hwf, -⟩ := hmem
  rw [step_of_write hidle hin]
  exact ⟨fun ha => ⟨_, if_pos ha, Memory.read_write_same a b hwf, fun x hx => Memory.read_write_other hx b, rfl⟩,
    fun ha => if_neg (Nat.not_lt.mpr ha)⟩

/-! ### The frame of a DISPLAY -/

/-- Settles O24: `exec_display_eq` at each answer of the wait; a wait that sees ready leads from READY back to READY. -/
theorem displaySendsTheFrame : Obligations.DisplaySendsTheFrame := by
  refine ⟨rfl, rfl, fun inv s hfit => ⟨fun hready => ?_, fun k hk => ?_, fun hnever => ?_⟩⟩
  · rw [launch_of_fit fun _ => hfit, begun_fsm, hready]; rfl
  · have hfsm : (if s.fsm = .ready then .ready else s.fsm) = s.fsm := ite_eq_right_iff.mpr Eq.symm
    have heq := exec_display_eq hfit (.ready hk) inv
    rw [if_pos rfl, hfsm] at heq
    exact ⟨_, _, heq⟩
  · exact ⟨_, _, exec_display_eq hfit (.never hnever) inv⟩

/-! ### The addresses requested -/

/-- Settles O43: the invariant holds after the step, and confines the read port. -/
theorem neverReadsOutOfBounds : Obligations.NeverReadsOutOfBounds := by
  intro s t a hinv h ha
  obtain ⟨-, hidleInv, hactiveInv⟩ := everyStepKeepsTheInvariant s t hinv h
  cases hactive : t.active with
  | false =>
    obtain ⟨-, -, hread, -⟩ := hidleInv hactive
    exact absurd (hread.symm.trans ha) nofun
  | true =>
    obtain ⟨i, hl, hp⟩ := (activeInv_iff hactive).mp (hactiveInv hactive)
    obtain ⟨-, ⟨inv, rfl⟩, hbase, hend⟩ := hp.read a ha
    obtain ⟨-, hspace⟩ := hl.fit ⟨inv, rfl⟩
    exact ⟨⟨inv, hl.word⟩, hbase, hend, by omega⟩

/-- An accepted DISPLAY after `j` bytes of its frame (44 R170, R171). -/
def State.framed (s : State) (inv : Bool) (j : Nat) : State :=
  { s with
    trace := s.trace ++ .cmd s.cfg.dtmCmd :: dataEvents ((List.range j).map (s.frameByte inv))
    seq := { s.seq with index := j + 1 } }

/-- An accepted DISPLAY whose frame is sent, at the first poll of its wait (44 R170). -/
def State.frameSent (s : State) (inv : Bool) : State :=
  State.enter { s with trace := s.trace ++ frameEvents s.cfg (frameBytes s inv) } .poll

theorem framed_succ (s : State) (inv : Bool) (j : Nat) :
    s.framed inv (j + 1) = (s.framed inv j).sent (.data (s.frameByte inv j)) := by
  simp [State.framed, State.sent, State.emit, State.advance, List.range_succ, dataEvents, Tx.event]

theorem invField_of_decode : ∀ {w : Byte} {inv : Bool}, decode w = .instr (.display inv) → invField w = inv := by
  decide

section
variable {inv : Bool} {s : State} (h : Resting (.display inv) s) (hphase : s.seq.phase = .frame)
include h

theorem framed_resting (j : Nat) : Resting (.display inv) (s.framed inv j) := ⟨h.active, h.word, h.tx, h.fbRd, h.ms⟩

include hphase

/-- When `j` bytes are sent, a DISPLAY has requested `base`, `base + 1`, ..., `base + j - 1` (20 R53). -/
theorem runs_frameBytes (hindex : s.seq.index = 0) (j : Nat) (hj : j ≤ s.cfg.fbLen) :
    Runs s ((List.range j).map (s.seq.base + ·)) (s.framed inv j) := by
  induction j with
  | zero =>
    have hmove : s.movePhase (.display inv) = s.offer (.cmd s.cfg.dtmCmd) := by
      simp [State.movePhase, hphase, State.moveFrame, hindex]
    have hsent : s.framed inv 0 = s.sent (.cmd s.cfg.dtmCmd) := by
      simp [State.framed, State.sent, State.emit, State.advance, dataEvents, Tx.event, hindex]
    exact hsent ▸ h.runs_of_offer hmove
  | succ j ih =>
    have hmove : (s.framed inv j).movePhase (.display inv) = (s.framed inv j).request (s.seq.base + j) := by
      simp [State.movePhase, hphase, State.moveFrame, State.moveFrameByte, State.framed, Nat.lt_of_succ_le hj]
    have hbyte := (framed_resting h j).runs_of_request hmove
    have hpx : px ((s.framed inv j).memRead (s.seq.base + j)) (invField (s.framed inv j).seq.word) =
        s.frameByte inv j := by
      rw [invField_of_decode (framed_resting h j).word]; rfl
    rw [hpx, ← framed_succ] at hbyte
    rw [List.range_succ, List.map_append]
    exact (ih (Nat.le_of_succ_le hj)).trans hbyte

/-- The whole frame, up to the wait. -/
theorem runs_frame (hindex : s.seq.index = 0) :
    Runs s ((List.range s.cfg.fbLen).map (s.seq.base + ·)) (s.frameSent inv) := by
  have hend := framed_resting h s.cfg.fbLen
  have hrefresh : (s.framed inv s.cfg.fbLen).movePhase (.display inv) =
      (s.framed inv s.cfg.fbLen).offer (.cmd s.cfg.refreshCmd) := by
    simp [State.movePhase, hphase, State.moveFrame, State.framed]
  have hwait : ((s.framed inv s.cfg.fbLen).sent (.cmd s.cfg.refreshCmd)).move = s.frameSent inv := by
    rw [(hend.sent _).move_eq]
    simp [State.movePhase, hphase, State.moveFrame, State.framed, State.frameSent, State.sent, State.emit,
      State.advance, State.enter, frameEvents, frameBytes_eq, Tx.event]
  have hsend := (hend.runs_of_offer hrefresh).trans (.move_quiet hwait h.active h.fbRd)
  simpa using (runs_frameBytes h hphase hindex s.cfg.fbLen le_rfl).trans hsend

/-- The whole DISPLAY: its frame requests the buffer's addresses in order, its wait requests nothing. -/
theorem runs_display (hindex : s.seq.index = 0) :
    ∃ t, Runs s ((List.range s.cfg.fbLen).map (s.seq.base + ·)) t ∧ t.active = false := by
  have hwaits : Resting (.display inv) (s.frameSent inv) :=
    ⟨h.active, h.word, h.tx, h.fbRd, h.ms⟩
  have hfirst : 0 + (s.cfg.maxPolls - 1 + 1) = s.cfg.maxPolls := by
    have hpolls := s.cfg.maxPolls_pos
    omega
  obtain ⟨k, hwait⟩ := hwaits.runs_wait (s.cfg.maxPolls - 1) rfl hfirst
  have hrun := (runs_frame h hphase hindex).trans hwait
  rw [List.append_nil] at hrun
  exact ⟨_, hrun, afterFrame_active _ _⟩

end

/-- Settles O49: the launch leaves a DISPLAY at the start of its frame, and `runs_display` is the rest. -/
theorem sequencerReadsEachByteOnce : Obligations.SequencerReadsEachByteOnce := by
  intro inv s hword hactive htx hfbRd hms hfit
  obtain ⟨t, hrun, hidle⟩ := runs_display (Resting.begun ⟨hactive, hword, htx, hfbRd, hms⟩) rfl rfl
  obtain ⟨n, hmoves, hrequests⟩ := hrun.exists_moves
  rw [launch_of_fit fun _ => hfit]
  exact ⟨n, by rw [hmoves, hidle], by simpa [State.begun] using hrequests⟩

end Sys2Proof.Machine
end

section
/-! Proofs of the statements of 30_encoding. A word is its three fields (R70), and the decoder answers an operation only
for that operation's fields; the step of a word is its instruction, or the completion with ILLEGAL. -/

namespace Sys2Proof

/-! ### The fields of a word -/

/-- `RSV`, `INV` and `OP` are all of a word (R70). -/
theorem word_ext_fields {v w : Byte} (hrsv : rsvField v = rsvField w) (hinv : invField v = invField w)
    (hop : opField v = opField w) : v = w := by
  have append_fields : ∀ u : Byte, (rsvField u ++ BitVec.ofBool (invField u)) ++ opField u = u := by decide
  rw [← append_fields v, ← append_fields w, hrsv, hinv, hop]

theorem fields_encode (i : Instr) :
    rsvField (encode i) = 0 ∧ invField (encode i) = i.inv ∧ opField (encode i) = i.op := by
  cases i with
  | display inv => cases inv <;> decide
  | init | reset | setlut | clear | sleep | waitidle => decide

/-! ### The decoder by fields -/

theorem decode_encode (i : Instr) : decode (encode i) = .instr i := by
  cases i with
  | display inv => cases inv <;> rfl
  | init | reset | setlut | clear | sleep | waitidle => rfl

/-- The decoder answers an operation only for a word with that operation's fields (R71, R72). -/
theorem fields_of_decode {w : Byte} {i : Instr} (h : decode w = .instr i) :
    rsvField w = 0 ∧ invField w = i.inv ∧ opField w = i.op := by
  simp only [decode] at h
  split_ifs at h with hrsv hzero hdisplay hinv hinit hreset hsetlut hclear hsleep <;>
    cases h <;> refine ⟨not_not.mp hrsv, ?_⟩
  · exact ⟨rfl, hdisplay⟩
  all_goals refine ⟨eq_false_of_ne_true hinv, ?_⟩
  · exact hinit
  · exact hreset
  · exact hsetlut
  · exact hclear
  · exact hsleep
  · change opField w = 0b111
    bv_omega

theorem Instr.op_ne_zero (i : Instr) : i.op ≠ 0 := by
  cases i <;> simp [Instr.op]

/-- DISPLAY is the only operation with an INV bit (R72). -/
theorem Instr.op_of_inv {i : Instr} (h : i.inv = true) : i.op = 0b100 := by
  cases i with
  | display inv => rfl
  | init | reset | setlut | clear | sleep | waitidle => cases h

/-- The three reasons of R77 are the ways in which a word's fields are no operation's. -/
theorem decode_illegal_iff (w : Byte) : (∃ why, decode w = .illegal why) ↔
    opField w = 0 ∨ rsvField w ≠ 0 ∨ (invField w = true ∧ opField w ≠ 0b100) := by
  constructor
  · rintro ⟨why, h⟩
    simp only [decode] at h
    split_ifs at h with hrsv hzero hdisplay hinv
    · exact .inr (.inl hrsv)
    · exact .inl hzero
    · exact .inr (.inr ⟨hinv, hdisplay⟩)
  · intro hreason
    cases hdecode : decode w with
    | illegal why => exact ⟨why, rfl⟩
    | instr i =>
      obtain ⟨hrsv, hinv, hop⟩ := fields_of_decode hdecode
      rw [hrsv, hinv, hop] at hreason
      rcases hreason with hzero | hrsv | ⟨hinv, hdisplay⟩
      · exact absurd hzero i.op_ne_zero
      · exact absurd rfl hrsv
      · exact absurd (Instr.op_of_inv hinv) hdisplay

end Sys2Proof

namespace Sys2Proof.Machine

/-- Settles O1: a decoded word has the fields of the operation's word, and so is that word. -/
theorem decodeReadsExactlyTheEncodedWord : Obligations.DecodeReadsExactlyTheEncodedWord := by
  intro w i
  refine ⟨fun h => ?_, fun h => h ▸ decode_encode i⟩
  obtain ⟨hrsv, hinv, hop⟩ := fields_of_decode h
  obtain ⟨hrsv', hinv', hop'⟩ := fields_encode i
  exact word_ext_fields (hrsv.trans hrsv'.symm) (hinv.trans hinv'.symm) (hop.trans hop'.symm)

/-- Settles O2: the words of the table are the encoded words, and 0x00 has OP = 000. -/
theorem tableWordsDecode : Obligations.TableWordsDecode :=
  ⟨decode_encode .init, decode_encode .reset, decode_encode .setlut, decode_encode (.display false),
    decode_encode (.display true), decode_encode .clear, decode_encode .sleep, decode_encode .waitidle, _, rfl⟩

/-! ### The step of an offered word -/

section
variable {s : State} {op : HostOp} {rest : List Input} (hidle : s.active = false)
include hidle

theorem step_of_legalWord (hin : s.inputs = .word op :: rest) {i : Instr} (hi : decode op.word = .instr i) :
    step s = exec i (s.accept op rest) := by
  rw [step_of_idle hidle, hin, runInput, runWord, hi]

theorem step_of_illegalWord (hin : s.inputs = .word op :: rest) {why : IllegalWord}
    (hi : decode op.word = .illegal why) : step s = .next ((s.accept op rest).raise .illegal) := by
  rw [step_of_idle hidle, hin, runInput, runWord, hi]

theorem step_of_noInput (hin : s.inputs = []) : step s = .next s.wait := by
  rw [step_of_idle hidle, hin, runInput]

end

/-- Settles O8: the state given is `State.accept`, with what each port carries written out. -/
theorem stepRunsTheDecodedInstruction : Obligations.StepRunsTheDecodedInstruction :=
  ⟨fun _ _ _ _ hidle hin hi => step_of_legalWord hidle hin hi, fun _ hidle hin => step_of_noInput hidle hin⟩

/-- The eight words of R71's table are the encoded words. -/
theorem mem_tableWords_iff (w : Byte) :
    w ∈ ([0x01, 0x02, 0x03, 0x04, 0x05, 0x06, 0x07, 0x0C] : List Byte) ↔ ∃ i, w = encode i := by
  constructor
  · intro hw
    simp only [List.mem_cons, List.not_mem_nil, or_false] at hw
    rcases hw with h | h | h | h | h | h | h | h
    exacts [⟨.init, h⟩, ⟨.reset, h⟩, ⟨.setlut, h⟩, ⟨.display false, h⟩, ⟨.clear, h⟩, ⟨.sleep, h⟩, ⟨.waitidle, h⟩,
      ⟨.display true, h⟩]
  · rintro ⟨i, rfl⟩
    cases i with
    | display inv => cases inv <;> decide
    | init | reset | setlut | clear | sleep | waitidle => decide

theorem decodes_iff_mem_tableWords (w : Byte) : (∃ i, decode w = .instr i) ↔
    w ∈ ([0x01, 0x02, 0x03, 0x04, 0x05, 0x06, 0x07, 0x0C] : List Byte) := by
  simp only [mem_tableWords_iff, decodeReadsExactlyTheEncodedWord w]

/-- Settles O3: an illegal word is accepted and raised, which writes only the fields named. -/
theorem illegalWordCompletesWithoutEffect : Obligations.IllegalWordCompletesWithoutEffect := by
  refine ⟨decodes_iff_mem_tableWords, decode_illegal_iff, fun s op rest hidle hin hword => ?_⟩
  cases hdecode : decode op.word with
  | instr i => exact absurd ((decodes_iff_mem_tableWords _).mp ⟨i, hdecode⟩) hword
  | illegal why => exact ⟨s.sync, Sequencer.idle, step_of_illegalWord hidle hin hdecode⟩

/-! ### The operands on the side ports -/

/-- No operation but DISPLAY depends on what is latched in the hidden sequencer state (R73). -/
theorem exec_withSeq {i : Instr} (hi : ∀ inv, i ≠ .display inv) (s : State) (q : Sequencer) :
    exec i { s with seq := q } = exec i s := by
  obtain ⟨ok, E, n, h⟩ := exists_waitMeets s
  have hwait : WaitMeets { s with seq := q } ok E n := h.congr rfl rfl rfl
  cases i with
  | init => rw [exec_init_eq h]; exact exec_init_eq hwait
  | reset => rw [exec_reset_eq s]; exact exec_reset_eq _
  | setlut => rw [exec_setlut_eq s]; exact exec_setlut_eq _
  | display inv => exact absurd rfl (hi inv)
  | clear => rw [exec_clear_eq h]; exact exec_clear_eq hwait
  | sleep => rw [exec_sleep_eq s]; exact exec_sleep_eq _
  | waitidle => rw [exec_waitidle_eq h]; exact exec_waitidle_eq hwait

/-- Settles O9: a number that fits its port is carried unchanged, and `exec_withSeq` is the rest. -/
theorem operandsAreZeroExtendedAndOnlyDisplayUsesThem : Obligations.OperandsAreZeroExtendedAndOnlyDisplayUsesThem :=
  ⟨fun _ _ _ hbase hlen => ⟨Nat.mod_eq_of_lt hbase, Nat.mod_eq_of_lt hlen⟩, fun _ s _ _ hi => exec_withSeq hi s _⟩

end Sys2Proof.Machine
end

section
/-! Proofs of the statements of 40_common about whole operations: SendSeq, RESET, the table of legal cells, misuse. -/

namespace Sys2Proof.Machine

/-! ### SendSeq, RESET and legality -/

theorem seqEvents_length (l : List CmdEntry) :
    (seqEvents l).length = l.length + (l.map fun e => e.data.length).sum := by
  induction l with
  | nil => rfl
  | cons e es ih =>
    have hentry : seqEvents (e :: es) = .cmd e.cmd :: (dataEvents e.data ++ seqEvents es) := rfl
    rw [hentry]
    simp only [List.length_cons, List.length_append, dataEvents, List.length_map, ih, List.map_cons, List.sum_cons]
    omega

/-- SendSeq makes no poll and no delay (40 R105): each event is that of a transaction. -/
theorem isTransaction_of_mem_seqEvents {l : List CmdEntry} {e : Event} (h : e ∈ seqEvents l) :
    e.isTransaction = true := by
  rw [← seqTransactions_event] at h
  obtain ⟨x, -, rfl⟩ := List.mem_map.mp h
  exact x.event_isTransaction

/-- Settles O12: the events are `seqEvents`, which are those of transactions. -/
theorem sendSeqEmitsOnlyTransactions : Obligations.SendSeqEmitsOnlyTransactions := fun s l =>
  ⟨seqEvents l, s.sync, sendSeq_eq s l, rfl, seqEvents_length l, fun _ => isTransaction_of_mem_seqEvents⟩

/-- Settles O20: `exec_reset_eq`, and the column of UNINIT in the table of legal cells. -/
theorem resetPulsesTheResetLine : Obligations.ResetPulsesTheResetLine :=
  ⟨rfl, fun s => ⟨_, _, exec_reset_eq s⟩, fun _ => ⟨rfl, rfl, rfl, rfl⟩⟩

/-- Settles O31: the table read off `legal`, and what `OpEffect` says of an operation's end state. -/
theorem legalityTableAndEndStates : Obligations.LegalityTableAndEndStates := by
  refine ⟨fun f => ⟨rfl, rfl, rfl, ?_⟩, fun i s t ht => (exec_effect ht).fsm⟩
  simp [legal]

/-! ### Misuse -/

/-- What an operation finds in `reg.STATE` reaches only `reg.STATE` and the misuse flag (40 R108). -/
theorem exec_withFsm {i : Instr} {s t : State} (ht : exec i s = .next t) (f : Fsm) :
    ∃ x m, exec i { s with fsm := f } = .next { t with fsm := x, misuse := m } := by
  obtain ⟨ok, E, n, h⟩ := exists_waitMeets s
  have hwait : WaitMeets { s with fsm := f } ok E n := h.congr rfl rfl rfl
  cases i with
  | init => rw [exec_init_eq h] at ht; cases ht; exact ⟨_, _, exec_init_eq hwait⟩
  | reset => rw [exec_reset_eq] at ht; cases ht; exact ⟨_, _, exec_reset_eq _⟩
  | setlut => rw [exec_setlut_eq] at ht; cases ht; exact ⟨_, _, exec_setlut_eq _⟩
  | display inv =>
    by_cases hfit : OperandsFit s
    · rw [exec_display_eq hfit h] at ht
      cases ht
      exact ⟨_, _, exec_display_eq (s := { s with fsm := f }) hfit hwait inv⟩
    · rw [exec_display_misfit hfit] at ht
      cases ht
      exact ⟨_, _, exec_display_misfit (s := { s with fsm := f }) hfit inv⟩
  | clear => rw [exec_clear_eq h] at ht; cases ht; exact ⟨_, _, exec_clear_eq hwait⟩
  | sleep => rw [exec_sleep_eq] at ht; cases ht; exact ⟨_, _, exec_sleep_eq _⟩
  | waitidle => rw [exec_waitidle_eq h] at ht; cases ht; exact ⟨_, _, exec_waitidle_eq hwait⟩

theorem begun_misuse (s : State) (i : Instr) : (s.begun i).misuse = (s.misuse || !legal i s.fsm) := by
  simp [State.begun]

/-- Settles O32: `exec_withFsm` at the two states, and the launch of an operation that is not rejected flags it. -/
theorem misuseIsFlaggedNotPrevented : Obligations.MisuseIsFlaggedNotPrevented := by
  intro i s f
  obtain ⟨t, ht, h⟩ := exists_exec i s
  obtain ⟨E, hE⟩ := h.trace
  obtain ⟨x, m, hu⟩ := exec_withFsm ht f
  refine ⟨t, _, E, ht, hu, hE, hE, rfl, rfl, fun hillegal => ⟨by rw [h.fsm, hillegal]; rfl, fun hst => ⟨?_, ?_, ?_⟩⟩⟩
  · rw [h.misuse, if_neg hst, hillegal]
    exact Bool.or_true _
  · have hfit : (∃ inv, i = .display inv) → OperandsFit s := fun hdisplay =>
      not_not.mp fun hmisfit => hst (h.badlen.mpr ⟨hdisplay, hmisfit⟩)
    rw [launch_of_fit hfit, begun_misuse, hillegal]
    exact Bool.or_true _
  · exact launch_trace i s

end Sys2Proof.Machine
end

section
/-! The sequencer refines the whole operations (40 R100): from each resting point of an operation the moves end where
the rest of its rule does, since a completion leaves nothing of the hidden sequencer state. -/

namespace Sys2Proof.Machine

/-! ### States that differ in the hidden sequencer alone -/

/-- The second state is the first but for the hidden sequencer state, of which only the `legal` bit is the same
(10 R36). -/
inductive SameButSeq (s : State) : State → Prop
  | intro (q : Sequencer) (hlegal : q.legal = s.seq.legal) : SameButSeq s { s with seq := q }

/-- The index of the phase at `j`. -/
def State.indexed (s : State) (j : Nat) : State := { s with seq := { s.seq with index := j } }

namespace SameButSeq

theorem enter (s : State) (p : Phase) : SameButSeq s (s.enter p) := ⟨_, rfl⟩
theorem counted (s : State) (k : Nat) : SameButSeq s (s.counted k) := ⟨_, rfl⟩
theorem indexed (s : State) (j : Nat) : SameButSeq s (s.indexed j) := ⟨_, rfl⟩

variable {s t u : State} (h : SameButSeq s t)
include h

theorem trans (h' : SameButSeq t u) : SameButSeq s u := by
  obtain ⟨q, hq⟩ := h
  obtain ⟨r, hr⟩ := h'
  exact ⟨r, hr.trans hq⟩

theorem complete (st : Status) : t.complete st = s.complete st := by
  obtain ⟨q, hq⟩ := h
  rfl

theorem setState (x : Fsm) : SameButSeq (s.setState x) (t.setState x) := by
  obtain ⟨q, hq⟩ := h
  simp only [State.setState, hq]
  split <;> exact ⟨q, hq⟩

theorem setState_complete (x : Fsm) (st : Status) : (t.setState x).complete st = (s.setState x).complete st :=
  (h.setState x).complete st

theorem resetPulse : SameButSeq s.resetPulse t.resetPulse := by
  obtain ⟨q, hq⟩ := h
  exact ⟨q, hq⟩

theorem sendSeq (l : List CmdEntry) : SameButSeq (s.sendSeq l) (t.sendSeq l) := by
  obtain ⟨q, hq⟩ := h
  rw [sendSeq_eq, sendSeq_eq]
  exact ⟨q, hq⟩

theorem loadLut : SameButSeq s.loadLut t.loadLut := by
  obtain ⟨q, hq⟩ := h
  rw [loadLut_eq, loadLut_eq]
  exact ⟨q, hq⟩

/-- A wait answers the same, and still leaves the two alike. -/
theorem waitUntilIdle :
    t.waitUntilIdle.1 = s.waitUntilIdle.1 ∧ SameButSeq s.waitUntilIdle.2 t.waitUntilIdle.2 := by
  obtain ⟨q, hq⟩ := h
  obtain ⟨ok, E, n, hmeets⟩ := exists_waitMeets s
  rw [waitUntilIdle_eq hmeets, waitUntilIdle_eq (hmeets.congr (t := { s with seq := q }) rfl rfl rfl)]
  exact ⟨rfl, q, hq⟩

theorem afterFrame (ok : Bool) : t.afterFrame ok = s.afterFrame ok := by
  cases ok with
  | false => exact h.complete .timeout
  | true => exact h.setState_complete .ready .ok

theorem afterFrame_sendFrame (src : Nat → Byte) :
    (t.sendFrame src).2.afterFrame (t.sendFrame src).1 = (s.sendFrame src).2.afterFrame (s.sendFrame src).1 := by
  have hsent : SameButSeq { s with trace := s.trace ++ frameEvents s.cfg ((List.range s.cfg.fbLen).map src) }
      { t with trace := t.trace ++ frameEvents t.cfg ((List.range t.cfg.fbLen).map src) } := by
    obtain ⟨q, hq⟩ := h
    exact ⟨q, hq⟩
  obtain ⟨hanswer, hend⟩ := hsent.waitUntilIdle
  rw [sendFrame_eq, sendFrame_eq, hanswer, hend.afterFrame]

theorem afterIdleWait (ok : Bool) : t.afterIdleWait ok = s.afterIdleWait ok := by
  have hfsm : t.fsm = s.fsm := by
    obtain ⟨q, hq⟩ := h
    rfl
  simp only [State.afterIdleWait, raise_eq, hfsm, h.setState_complete, h.complete]

theorem afterInitWait (ok : Bool) : t.afterInitWait ok = s.afterInitWait ok := by
  have hcfg : t.cfg = s.cfg := by
    obtain ⟨q, hq⟩ := h
    rfl
  simp only [State.afterInitWait, raise_eq, hcfg, h.setState_complete, (h.sendSeq _).loadLut.setState_complete]

end SameButSeq

/-! ### The frames -/

/-- A byte of a frame depends on memory and the latched base alone (44 R171). -/
theorem frameByte_congr {s t : State} (hmem : t.mem = s.mem) (hbase : t.seq.base = s.seq.base) (inv : Bool) :
    t.frameByte inv = s.frameByte inv := by
  funext j
  rw [State.frameByte, State.memRead, hmem, hbase]
  rfl


/-- The transactions of a frame of `CLEAR` (44 R170, R174). -/
def clearTransactions (c : Config) : List Tx :=
  .cmd c.dtmCmd :: List.replicate c.fbLen (.data c.clearByte) ++ [.cmd c.refreshCmd]

theorem clearTransactions_event (c : Config) :
    (clearTransactions c).map Tx.event = frameEvents c ((List.range c.fbLen).map fun _ => c.clearByte) := by
  simp [clearTransactions, frameEvents, dataEvents, Tx.event]

/-- CLEAR sends its frame as a list of transactions. -/
theorem moveFrame_clear (s : State) :
    s.moveFrame .clear = s.moveList (clearTransactions s.cfg) (s.enter .poll) := by
  unfold State.moveFrame State.moveList clearTransactions
  cases hindex : s.seq.index with
  | zero => rfl
  | succ j =>
    rcases lt_trichotomy j s.cfg.fbLen with hlt | heq | hgt
    · simp [hlt, State.moveFrameByte, List.getElem?_append_left]
    · simp [heq]
    · have hend : s.cfg.fbLen + 1 ≤ j := hgt
      simp [hgt.not_gt, hgt.ne', List.getElem?_eq_none, hend]

/-! ### Points of a list of transactions and of the reset pulse -/

/-- The first `j` transactions of a phase's list are taken (10 R35). -/
def State.listed (s : State) (l : List Tx) (j : Nat) : State :=
  { s with trace := s.trace ++ (l.take j).map Tx.event }.indexed j

theorem SameButSeq.listed (s : State) (l : List Tx) :
    SameButSeq { s with trace := s.trace ++ l.map Tx.event } (s.listed l l.length) := by
  rw [State.listed, List.take_length]
  exact .indexed _ _

/-- The line driven to `v` and held there for `n` milliseconds: two events of the pulse (40 R106). -/
def State.halfPulsed (s : State) (v : Level) (n : Nat) : State :=
  { s with
    rstLine := v
    trace := s.trace ++ [.setRst v, .delay n]
    seq := { s.seq with index := s.seq.index + 2 } }

/-- `n` milliseconds of a delay are left (40 R103). -/
def State.delaying (s : State) (n : Nat) : State := { s with seq := { s.seq with ms := n } }

theorem halfPulsed_halfPulsed (s : State) (hindex : s.seq.index = 0) :
    (s.halfPulsed false s.cfg.tRstLowMs).halfPulsed true s.cfg.tRstHighMs = s.resetPulse.indexed 4 := by
  simp [State.halfPulsed, resetPulse_eq, pulseEvents, State.indexed, hindex]

theorem movePhase_of_pulse {s : State} (h : s.seq.phase = .pulse) (i : Instr) : s.movePhase i = s.movePulse i := by
  rw [State.movePhase, h]

theorem afterPulse_fbRd (s : State) (i : Instr) : (s.afterPulse i).fbRd = s.fbRd := by
  cases i <;> rfl

/-! ### The phases, from their start -/

namespace Resting

variable {i : Instr} {s : State}

theorem enter (h : Resting i s) (p : Phase) : Resting i (s.enter p) := ⟨h.active, h.word, h.tx, h.fbRd, h.ms⟩

theorem waitUntilIdle (h : Resting i s) : Resting i s.waitUntilIdle.2 := by
  obtain ⟨ok, E, n, hmeets⟩ := exists_waitMeets s
  rw [waitUntilIdle_eq hmeets]
  exact ⟨h.active, h.word, h.tx, h.fbRd, h.ms⟩

theorem checkLegal (h : Resting i s) (j : Instr) : Resting i (s.checkLegal j) :=
  ⟨h.active, h.word, h.tx, h.fbRd, h.ms⟩

theorem counted (h : Resting i s) (k : Nat) : Resting i (s.counted k) := ⟨h.active, h.word, h.tx, h.fbRd, h.ms⟩

theorem setState (h : Resting i s) (x : Fsm) : Resting i (s.setState x) := by
  constructor <;> simp [h.active, h.word, h.tx, h.fbRd, h.ms]

theorem listed (h : Resting i s) (l : List Tx) (j : Nat) : Resting i (s.listed l j) :=
  ⟨h.active, h.word, h.tx, h.fbRd, h.ms⟩

/-- A delay in progress runs out (60 R212). -/
theorem runs_delaying (h : Resting i s) (n : Nat) : Runs (s.delaying n) [] s := by
  have hend : { s.delaying n with seq := { (s.delaying n).seq with ms := 0 } } = s := by
    rw [← h.ms]; rfl
  have hticks := runs_ticks n (s := s.delaying n) h.active h.tx h.fbRd rfl
  rwa [hend] at hticks

/-- A phase that sends a list of transactions takes each in turn and goes where the phase leads. -/
theorem runs_list (h : Resting i s) (hindex : s.seq.index = 0) {l : List Tx} {fin : State → State}
    (hmove : ∀ u : State, u.seq.phase = s.seq.phase → u.cfg = s.cfg → u.movePhase i = u.moveList l (fin u))
    (hfin : ∀ u : State, (fin u).fbRd = u.fbRd) : Runs s [] (fin (s.listed l l.length)) := by
  have hmove_listed (j : Nat) : (s.listed l j).move = (s.listed l j).moveList l (fin (s.listed l j)) :=
    (h.listed l j).move_eq.trans (hmove _ rfl rfl)
  have htaken : ∀ j ≤ l.length, Runs s [] (s.listed l j) := by
    intro j hj
    induction j with
    | zero =>
      have hseq : { s.seq with index := 0 } = s.seq := by rw [← hindex]
      have hnone : s.listed l 0 = s := by simp [State.listed, State.indexed, hseq]
      rw [hnone]
      exact .refl s
    | succ j ih =>
      obtain ⟨x, hx⟩ : ∃ x, l[j]? = some x := ⟨_, List.getElem?_eq_getElem hj⟩
      have hoffer : (s.listed l j).movePhase i = (s.listed l j).offer x := by
        rw [hmove (s.listed l j) rfl rfl]
        simp [State.moveList, State.listed, State.indexed, hx]
      have hsent : (s.listed l j).sent x = s.listed l (j + 1) := by
        simp [State.listed, State.indexed, State.sent, State.emit, State.advance, List.take_add_one, hx]
      exact (ih (Nat.le_of_succ_le hj)).trans (hsent ▸ (h.listed l j).runs_of_offer hoffer)
  have hlast : (s.listed l l.length).move = fin (s.listed l l.length) := by
    rw [hmove_listed]
    simp [State.moveList, State.listed, State.indexed]
  exact (htaken l.length le_rfl).trans (.move_quiet hlast h.active ((hfin _).trans h.fbRd))

/-- A list of transactions whose end is the operation's. -/
theorem runs_lastList (h : Resting i s) (hindex : s.seq.index = 0) {l : List Tx} {x : Fsm}
    (hmove : ∀ u : State, u.seq.phase = s.seq.phase → u.cfg = s.cfg →
      u.movePhase i = u.moveList l ((u.setState x).complete .ok)) :
    Runs s [] ((State.setState { s with trace := s.trace ++ l.map Tx.event } x).complete .ok) := by
  rw [← (SameButSeq.listed s l).setState_complete]
  exact h.runs_list hindex (fin := fun u => (u.setState x).complete .ok) hmove fun u => by simp

/-- LoadLut, and the end of the operation (42 R140, R141). -/
theorem runs_lut (h : Resting i s) (hphase : s.seq.phase = .lut) (hindex : s.seq.index = 0) :
    Runs s [] ((s.loadLut.setState .ready).complete .ok) := by
  rw [loadLut_eq, ← lutTransactions_event]
  exact h.runs_lastList hindex fun u hp hcfg => by simp only [State.movePhase, hp, hphase, hcfg]

/-- The transactions of SLEEP_SEQ, and the end of the operation (45 R190). -/
theorem runs_sleep (h : Resting i s) (hphase : s.seq.phase = .sleep) (hindex : s.seq.index = 0) :
    Runs s [] (((s.sendSeq s.cfg.sleepSeq).setState .asleep).complete .ok) := by
  rw [sendSeq_eq, ← seqTransactions_event]
  exact h.runs_lastList hindex fun u hp hcfg => by simp only [State.movePhase, hp, hphase, hcfg]

/-- The transactions of INIT_CFG, LoadLut, and the end of the operation (41 R120). -/
theorem runs_config (h : Resting i s) (hphase : s.seq.phase = .config) (hindex : s.seq.index = 0) :
    Runs s [] (((s.sendSeq s.cfg.initCfg).loadLut.setState .ready).complete .ok) := by
  have hconfig := h.runs_list hindex (l := seqTransactions s.cfg.initCfg) (fin := fun u => u.enter .lut)
    (fun u hp hcfg => by simp only [State.movePhase, hp, hphase, hcfg]) (fun u => rfl)
  have hsame := (SameButSeq.listed s (seqTransactions s.cfg.initCfg)).trans (.enter _ .lut)
  rw [sendSeq_eq, ← seqTransactions_event, ← hsame.loadLut.setState_complete]
  exact hconfig.trans (((h.listed _ _).enter .lut).runs_lut rfl rfl)

/-- The whole of a wait and what follows it, from its first poll; `k` is what the counter ends at. -/
theorem runs_waitUntilIdle (h : Resting i s) (hphase : s.seq.phase = .poll) (hk : s.seq.k = 0) :
    ∃ k, Runs s [] ((s.waitUntilIdle.2.counted k).afterWait s.waitUntilIdle.1 i) := by
  have hpolls : s.cfg.maxPolls - 1 + 1 = s.cfg.maxPolls := Nat.sub_add_cancel s.cfg.maxPolls_pos
  have hwait := h.runs_wait (s.cfg.maxPolls - 1) hphase (by omega)
  rwa [hpolls] at hwait

/-- A wait and the rest of the operation after it, from a state that differs from `u` in the hidden sequencer alone. -/
theorem runs_wait_then (h : Resting i s) (hphase : s.seq.phase = .poll) (hk : s.seq.k = 0) {u : State}
    (hu : SameButSeq u s) {after : State → Bool → State}
    (hafter : ∀ {t : State}, Resting i t → ∀ ok, Runs (t.afterWait ok i) [] (after t ok))
    (hsame : ∀ {s t : State}, SameButSeq s t → ∀ ok, after t ok = after s ok) :
    Runs s [] (after u.waitUntilIdle.2 u.waitUntilIdle.1) := by
  obtain ⟨k, hwait⟩ := h.runs_waitUntilIdle hphase hk
  obtain ⟨hanswer, hend⟩ := hu.waitUntilIdle
  have hrun := hwait.trans (hafter (h.waitUntilIdle.counted k) s.waitUntilIdle.1)
  rwa [hsame (hend.trans (.counted _ k)), hanswer] at hrun

/-- What follows the wait of an INIT (41 R120). -/
theorem runs_afterInitWait (h : Resting .init s) (ok : Bool) :
    Runs (s.afterWait ok .init) [] (s.afterInitWait ok) := by
  cases ok with
  | false => exact .refl _
  | true =>
    rw [← (SameButSeq.enter s .config).afterInitWait]
    exact (h.enter .config).runs_config rfl rfl

theorem halfPulsed (h : Resting i s) (v : Level) (n : Nat) : Resting i (s.halfPulsed v n) :=
  ⟨h.active, h.word, h.tx, h.fbRd, h.ms⟩

/-- Half of the reset pulse, from the move that drives the line on (40 R102, R103, R106). -/
theorem runs_halfPulse (h : Resting i s) (hphase : s.seq.phase = .pulse) {v : Level} {n : Nat}
    (hline : s.movePulse i = (s.setRst v).advance)
    (hdelay : ∀ u : State, u.seq.index = s.seq.index + 1 → u.cfg = s.cfg →
      u.movePulse i = (u.startDelay n).advance) : Runs s [] (s.halfPulsed v n) := by
  have hdriven : Resting i (s.setRst v).advance := ⟨h.active, h.word, h.tx, h.fbRd, h.ms⟩
  have hdrive : s.move = (s.setRst v).advance := by
    rw [h.move_eq, movePhase_of_pulse hphase, hline]
  have hstart : (s.setRst v).advance.move = (s.halfPulsed v n).delaying n := by
    rw [hdriven.move_eq, movePhase_of_pulse (by exact hphase), hdelay (s.setRst v).advance rfl rfl]
    simp [State.delaying, State.halfPulsed, State.setRst, State.startDelay, State.delayMs, State.emit, State.advance]
  exact .trans (.move_quiet hdrive h.active h.fbRd)
    (.trans (.move_quiet hstart h.active h.fbRd) ((h.halfPulsed v n).runs_delaying n))

/-- The four events of the reset pulse, and what follows it (40 R106). -/
theorem runs_pulse (h : Resting i s) (hphase : s.seq.phase = .pulse) (hindex : s.seq.index = 0) :
    Runs s [] ((s.resetPulse.indexed 4).afterPulse i) := by
  have hrest := h.halfPulsed false s.cfg.tRstLowMs
  have hlow : Runs s [] (s.halfPulsed false s.cfg.tRstLowMs) :=
    h.runs_halfPulse hphase (by simp only [State.movePulse, hindex]) fun u hu hcfg => by
      simp only [State.movePulse, hu, hindex, hcfg]
  have hhigh : Runs (s.halfPulsed false s.cfg.tRstLowMs) [] (s.resetPulse.indexed 4) := by
    have hhalf : (s.halfPulsed false s.cfg.tRstLowMs).seq.index = 2 := by simp [State.halfPulsed, hindex]
    rw [← halfPulsed_halfPulsed s hindex]
    exact hrest.runs_halfPulse hphase (by simp only [State.movePulse, hhalf]) fun u hu hcfg => by
      simp only [State.movePulse, hu, hhalf, hcfg]
      rfl
  have hlast : (s.resetPulse.indexed 4).move = (s.resetPulse.indexed 4).afterPulse i := by
    have hrestEnd := hrest.halfPulsed true s.cfg.tRstHighMs
    rw [halfPulsed_halfPulsed s hindex] at hrestEnd
    rw [hrestEnd.move_eq, movePhase_of_pulse (by exact hphase)]
    rfl
  exact hlow.trans (hhigh.trans (.move_quiet hlast h.active ((afterPulse_fbRd _ _).trans h.fbRd)))

end Resting

/-! ### The operations -/

/-- The moves of the launched operation end in the state that `exec` answers. -/
def MovesRefine (i : Instr) (s : State) : Prop := ∃ t as, exec i s = .next t ∧ Runs (s.launch i) as t

namespace Resting

variable {s : State}

theorem init_movesRefine (h : Resting .init s) : MovesRefine .init s := by
  have hstart := ((h.checkLegal .init).setState .awaitLut).enter .pulse
  have hrest : Resting .init (((s.launch .init).resetPulse.indexed 4).enter .poll) :=
    ⟨hstart.active, hstart.word, hstart.tx, hstart.fbRd, hstart.ms⟩
  have hsame := ((SameButSeq.enter ((s.checkLegal .init).setState .awaitLut) .pulse).resetPulse.trans
    (.indexed _ 4)).trans (.enter _ .poll)
  have hwait := hrest.runs_wait_then rfl rfl hsame runs_afterInitWait SameButSeq.afterInitWait
  exact ⟨_, _, rfl, (hstart.runs_pulse rfl rfl).trans hwait⟩

theorem reset_movesRefine (h : Resting .reset s) : MovesRefine .reset s := by
  have hsame := (SameButSeq.enter ((s.checkLegal .reset).setState .uninit) .pulse).resetPulse.trans (.indexed _ 4)
  have hpulse := (((h.checkLegal .reset).setState .uninit).enter .pulse).runs_pulse rfl rfl
  rw [State.afterPulse, hsame.complete] at hpulse
  exact ⟨_, _, rfl, hpulse⟩

theorem setlut_movesRefine (h : Resting .setlut s) : MovesRefine .setlut s := by
  have hrun := ((h.checkLegal .setlut).enter .lut).runs_lut rfl rfl
  rw [(SameButSeq.enter _ .lut).loadLut.setState_complete] at hrun
  exact ⟨_, _, rfl, hrun⟩

theorem sleep_movesRefine (h : Resting .sleep s) : MovesRefine .sleep s := by
  have hrun := ((h.checkLegal .sleep).enter .sleep).runs_sleep rfl rfl
  rw [((SameButSeq.enter _ .sleep).sendSeq _).setState_complete] at hrun
  exact ⟨_, _, rfl, hrun⟩

theorem waitidle_movesRefine (h : Resting .waitidle s) : MovesRefine .waitidle s :=
  ⟨_, _, rfl, ((h.checkLegal .waitidle).enter .poll).runs_wait_then rfl rfl (.enter _ .poll) (fun _ _ => .refl _)
    SameButSeq.afterIdleWait⟩

/-- The frame of a CLEAR, its wait, and the end of the operation (44 R174). -/
theorem runs_clearFrame (h : Resting .clear s) (hphase : s.seq.phase = .frame) (hindex : s.seq.index = 0) :
    Runs s [] ((s.sendFrame fun _ => s.cfg.clearByte).2.afterFrame (s.sendFrame fun _ => s.cfg.clearByte).1) := by
  have hlist := h.runs_list hindex (l := clearTransactions s.cfg) (fin := fun u => u.enter .poll)
    (fun u hp hcfg => by simp only [State.movePhase, hp, hphase, ← hcfg, moveFrame_clear]) (fun u => rfl)
  have hsame := (SameButSeq.listed s (clearTransactions s.cfg)).trans (.enter _ .poll)
  rw [clearTransactions_event] at hsame
  rw [sendFrame_eq]
  exact hlist.trans (((h.listed _ _).enter .poll).runs_wait_then rfl rfl hsame (fun _ _ => .refl _)
    SameButSeq.afterFrame)

theorem clear_movesRefine (h : Resting .clear s) : MovesRefine .clear s := by
  have hstart := ((h.checkLegal .clear).setState .busy).enter .frame
  have hrun := hstart.runs_clearFrame rfl rfl
  rw [(SameButSeq.enter _ .frame).afterFrame_sendFrame, State.enter_cfg, State.setState_cfg] at hrun
  exact ⟨_, _, rfl, hrun⟩

/-- The frame of a DISPLAY, its wait, and the end of the operation (44 R171). -/
theorem runs_displayFrame {inv : Bool} (h : Resting (.display inv) s) (hphase : s.seq.phase = .frame)
    (hindex : s.seq.index = 0) :
    ∃ as, Runs s as ((s.sendFrame (s.frameByte inv)).2.afterFrame (s.sendFrame (s.frameByte inv)).1) := by
  have hwaits : Resting (.display inv) (s.frameSent inv) := ⟨h.active, h.word, h.tx, h.fbRd, h.ms⟩
  rw [sendFrame_eq, ← frameBytes_eq]
  exact ⟨_, (runs_frame h hphase hindex).trans (hwaits.runs_wait_then rfl rfl (.enter _ .poll) (fun _ _ => .refl _)
    SameButSeq.afterFrame)⟩

theorem display_movesRefine {inv : Bool} (h : Resting (.display inv) s) : MovesRefine (.display inv) s := by
  by_cases hfit : OperandsFit s
  · have hstart := ((h.checkLegal (.display inv)).setState .busy).enter .frame
    obtain ⟨as, hrun⟩ := hstart.runs_displayFrame rfl rfl
    rw [(SameButSeq.enter _ .frame).afterFrame_sendFrame,
      frameByte_congr (s := s) (by simp) (by simp)] at hrun
    have hexec : exec (.display inv) s = .next ((s.checkLegal (.display inv)).showFrame (s.frameByte inv)) := by
      rw [exec, execDisplay, if_pos (s.operandsFit_iff.mpr hfit)]
    exact ⟨_, as, hexec, by rwa [launch_of_fit fun _ => hfit]⟩
  · refine ⟨_, [], exec_display_misfit hfit inv, ?_⟩
    have hreject : s.launch (.display inv) = s.raise .badlen := if_neg (s.operandsFit_iff.not.mpr hfit)
    exact hreject ▸ .refl _

end Resting

/-- Launched from a resting point, every operation's moves end where the whole operation does. -/
theorem Resting.movesRefine {i : Instr} {s : State} (h : Resting i s) : MovesRefine i s := by
  cases i with
  | init => exact h.init_movesRefine
  | reset => exact h.reset_movesRefine
  | setlut => exact h.setlut_movesRefine
  | display inv => exact h.display_movesRefine
  | clear => exact h.clear_movesRefine
  | sleep => exact h.sleep_movesRefine
  | waitidle => exact h.waitidle_movesRefine

/-! ### Single steps -/

theorem coreRun_succ {s t : State} (h : step s = .next t) (n : Nat) :
    Host.Core.run Sys2Proof.core (n + 1) s = Host.Core.run Sys2Proof.core n t := by
  have hstep : Sys2Proof.core.step s = .next t := h
  simp only [Host.Core.run, hstep]

/-- A run of moves is a run of single steps, since an active block's step is a move. -/
theorem Runs.exists_coreRun {s t : State} {as : List Nat} (h : Runs s as t) :
    ∃ n, Host.Core.run Sys2Proof.core n s = .next t := by
  induction h with
  | refl => exact ⟨0, rfl⟩
  | quiet hactive _ _ ih | request hactive _ _ _ _ ih =>
    obtain ⟨n, hn⟩ := ih
    exact ⟨n + 1, (coreRun_succ (step_of_active hactive) n).trans hn⟩

/-- Settles O48: `Resting.movesRefine` at the launched state, its run counted in moves and in single steps; an illegal
word is complete at its acceptance. -/
theorem sequencerRefinesTheOperation : Obligations.SequencerRefinesTheOperation := by
  refine ⟨fun i s hword hactive htx hfbRd hms => ?_, fun s op rest hidle hin htx hfbRd => ?_⟩
  · obtain ⟨t, as, ht, hrun⟩ := Resting.movesRefine ⟨hactive, hword, htx, hfbRd, hms⟩
    obtain ⟨n, hn, -⟩ := hrun.exists_moves
    exact ⟨n, t, ht, hn, (exec_effect ht).active⟩
  · have hstep : step s = .next (s.start op rest) := by rw [step_of_idle hidle, hin, runInput]
    cases hdecode : decode op.word with
    | illegal why =>
      refine ⟨0, (s.accept op rest).raise .illegal, by rw [runWord, hdecode], ?_, rfl⟩
      rw [coreRun_succ hstep, State.start, hdecode]
      rfl
    | instr i =>
      obtain ⟨t, as, ht, hrun⟩ := Resting.movesRefine (s := s.accept op rest) ⟨rfl, hdecode, htx, hfbRd, rfl⟩
      obtain ⟨n, hn⟩ := hrun.exists_coreRun
      refine ⟨n, t, by simp only [runWord, hdecode, ht], ?_, (exec_effect ht).active⟩
      rw [coreRun_succ hstep, State.start, hdecode, hn]

end Sys2Proof.Machine
end

section
/-! Proofs of the statements of 41_init_reset: the events of INIT in closed form, on what they depend, and what leads
out of UNINIT. -/

namespace Sys2Proof.Machine

/-! ### The events of a wait and of INIT, counted -/

theorem busyPolls_length (c : Config) (n : Nat) : (busyPolls c n).length = 2 * n := by
  induction n with
  | zero => rfl
  | succ n ih =>
    rw [busyPolls_succ, List.length_append, ih, Nat.mul_succ, Nat.add_comm]
    rfl

theorem readyWait_length (c : Config) {k : Nat} (hk : 1 ≤ k) : (readyWait c k).length = 2 * k - 1 := by
  rw [readyWait, List.length_append, busyPolls_length, List.length_singleton]
  omega

theorem lutEvents_length (c : Config) : (lutEvents c).length = 1 + c.lutLen := by
  rw [lutEvents, List.length_cons, dataEvents, List.length_map, c.lut_length, Nat.add_comm]

theorem pollCount_append (E F : List Event) : pollCount (E ++ F) = pollCount E + pollCount F :=
  List.countP_append

/-- No transaction is a poll. -/
theorem pollCount_map_event (l : List Tx) : pollCount (l.map Tx.event) = 0 := by
  refine List.countP_eq_zero.mpr fun e he => ?_
  obtain ⟨x, -, rfl⟩ := List.mem_map.mp he
  cases x <;> nofun

theorem pollCount_seqEvents (l : List CmdEntry) : pollCount (seqEvents l) = 0 := by
  rw [← seqTransactions_event, pollCount_map_event]

theorem pollCount_lutEvents (c : Config) : pollCount (lutEvents c) = 0 := by
  rw [← lutTransactions_event, pollCount_map_event]

/-- The events of an INIT whose wait sees ready at its `k`-th poll (41 R121). -/
def initEvents (c : Config) (k : Nat) : List Event :=
  pulseEvents c ++ readyWait c k ++ seqEvents c.initCfg ++ lutEvents c

theorem initEvents_length (c : Config) {k : Nat} (hk : 1 ≤ k) :
    (initEvents c k).length =
      4 + (2 * k - 1) + c.nCfg + (c.initCfg.map fun e => e.data.length).sum + 1 + c.lutLen := by
  have hpulse : (pulseEvents c).length = 4 := rfl
  simp only [initEvents, List.length_append, hpulse, readyWait_length c hk, seqEvents_length, lutEvents_length,
    Params.nCfg]
  omega

/-- The pulse, the configuration and the LUT hold no poll. -/
theorem pollCount_initEvents (c : Config) (k : Nat) : pollCount (initEvents c k) = pollCount (readyWait c k) := by
  have hpulse : pollCount (pulseEvents c) = 0 := rfl
  simp only [initEvents, pollCount_append, hpulse, pollCount_seqEvents, pollCount_lutEvents, Nat.zero_add,
    Nat.add_zero]

/-! ### INIT -/

/-- INIT whose wait sees ready (41 R120). -/
theorem exec_init_ready {s : State} {k : Nat} (hk : ReadyAtPoll s k) :
    exec .init s = .next (State.complete { s with
      fsm := .ready
      rstLine := true
      trace := s.trace ++ initEvents s.cfg k
      nDraws := s.nDraws + k
      sync := ⟨s.cfg.busyReadyLevel, s.cfg.busyReadyLevel⟩ } .ok) := by
  rw [exec_init_eq (.ready hk), initEvents, List.append_assoc (_ ++ _)]
  rfl

/-- INIT whose wait gives up: nothing follows the wait (41 R120). -/
theorem exec_init_timeout {s : State} (hnever : NeverReady s) :
    exec .init s = .next (State.complete { s with
      fsm := .uninit
      rstLine := true
      trace := s.trace ++ (pulseEvents s.cfg ++ failedWait s.cfg)
      nDraws := s.nDraws + s.cfg.maxPolls
      sync := ⟨!s.cfg.busyReadyLevel, !s.cfg.busyReadyLevel⟩ } .timeout) := by
  rw [exec_init_eq (.never hnever), if_neg nofun, if_neg nofun, List.append_nil]
  rfl

/-- Settles O17: INIT's end for each answer of its wait, and the length of each part of a successful one. -/
theorem initRunsTheWholeSequence : Obligations.InitRunsTheWholeSequence :=
  ⟨rfl, fun s => ⟨rfl, fun _ hk => ⟨_, _, exec_init_ready hk⟩, fun hnever => ⟨_, _, exec_init_timeout hnever⟩,
    fun _ hk => initEvents_length s.cfg hk⟩⟩

/-- Of the environment, what a wait meets depends on the levels drawn alone, not on how many were drawn before. -/
theorem WaitMeets.congr_drawAt {s t : State} {ok : Bool} {E : List Event} {n : Nat} (h : WaitMeets s ok E n)
    (hcfg : t.cfg = s.cfg) (hdraw : ∀ j, t.drawAt j = s.drawAt j) : WaitMeets t ok E n := by
  cases h with
  | ready h => rw [← hcfg]; exact .ready (by simpa only [ReadyAtPoll, hdraw, hcfg] using h)
  | never h => rw [← hcfg]; exact .never (by simpa only [NeverReady, hdraw, hcfg] using h)

/-- Settles O18: the two waits meet the same, and the rest of INIT's events are those of the configuration. -/
theorem initEventsIgnoreRegistersAndHistory : Obligations.InitEventsIgnoreRegistersAndHistory := by
  intro s u hcfg hdraw
  obtain ⟨ok, E, n, h⟩ := exists_waitMeets s
  have hu : WaitMeets u ok E n := h.congr_drawAt hcfg.symm fun j => (hdraw j).symm
  exact ⟨_, _, _, exec_init_eq h, exec_init_eq hu, rfl, by rw [hcfg]; rfl⟩

theorem readyAtPoll_one {s : State} (h : s.drawAt 0 = s.cfg.busyReadyLevel) : ReadyAtPoll s 1 :=
  ⟨le_rfl, s.cfg.maxPolls_pos, nofun, h⟩

/-- Settles O19: the wait sees ready at its first poll, which is the only one. -/
theorem initWithReadyLinePollsOnce : Obligations.InitWithReadyLinePollsOnce := by
  intro s hready
  have hfirst : ReadyAtPoll s 1 := readyAtPoll_one (hready 0 s.cfg.maxPolls_pos)
  have hpoll : pollCount (initEvents s.cfg 1) = 1 := pollCount_initEvents s.cfg 1
  refine ⟨_, exec_init_ready hfirst, ?_, s.cfg.lut_length, ?_⟩
  · simp [initEvents, readyWait_one, lutEvents, dataEvents]
  · exact (pollCount_append _ _).trans (congrArg _ hpoll)

/-! ### Out of UNINIT -/

/-- In UNINIT, what is legal and is not INIT ends there (41 R125). -/
theorem legalEnd_uninit {i : Instr} (hi : i ≠ .init) (hlegal : legal i .uninit = true) (st : Status) :
    legalEnd i .uninit st = .uninit := by
  cases i with
  | init => exact absurd rfl hi
  | reset => rfl
  | setlut | display | clear | sleep => cases hlegal
  | waitidle => simp [legalEnd]

/-- Settles O21: a legal operation other than INIT ends in UNINIT, and one that is not legal writes no state and is
flagged, unless it completes with BADLEN, which only DISPLAY does. -/
theorem onlyInitLeavesUninit : Obligations.OnlyInitLeavesUninit := by
  intro i s t huninit ht hi
  have h := exec_effect ht
  refine ⟨?_, fun hneeds => ?_⟩
  · rw [h.fsm, huninit]
    split
    · next hlegal => exact legalEnd_uninit hi hlegal t.status
    · rfl
  · have hillegal : legal i s.fsm = false := by
      rw [huninit]
      rcases hneeds with rfl | rfl | rfl | ⟨⟨inv, rfl⟩, -⟩ <;> rfl
    have hnotRejected : t.status ≠ .badlen := by
      intro hbadlen
      obtain ⟨⟨inv, rfl⟩, -⟩ := h.badlen.mp hbadlen
      rcases hneeds with hne | hne | hne | ⟨-, hst⟩
      · cases hne
      · cases hne
      · cases hne
      · exact hst hbadlen
    rw [h.misuse, if_neg hnotRejected, hillegal]
    exact Bool.or_true _

end Sys2Proof.Machine
end

section
/-! Proofs of the statements of 42_lut_loader: what SETLUT sends, and who holds AWAIT_LUT. -/

namespace Sys2Proof.Machine

/-- Settles O22: `exec_setlut_eq`, whose events are those of LoadLut, one command and the bytes of the LUT. -/
theorem setlutSendsTheLut : Obligations.SetlutSendsTheLut :=
  ⟨rfl, fun s => ⟨⟨_, _, exec_setlut_eq s⟩, lutEvents_length s.cfg⟩⟩

/-- SETLUT is legal in AWAIT_LUT alone (42 R141). -/
theorem legal_setlut_of_ne_awaitLut {f : Fsm} (hf : f ≠ .awaitLut) : legal .setlut f = false :=
  beq_eq_false_iff_ne.mpr hf

/-- Of an active block in AWAIT_LUT, the operation is INIT (42 R142). -/
theorem Launched.init_of_awaitLut {i : Instr} {s : State} (h : Launched i s) (hawait : s.fsm = .awaitLut) :
    i = .init :=
  of_not_not fun hi => h.fsm hi hawait

/-- Settles O42: the invariant holds after the step; it keeps an idle block out of AWAIT_LUT, and lets an active one be
there in an INIT only. -/
theorem awaitLutIsHeldOnlyByAnActiveInit : Obligations.AwaitLutIsHeldOnlyByAnActiveInit := by
  intro s t hinv h
  obtain ⟨-, hidleInv, hactiveInv⟩ := everyStepKeepsTheInvariant s t hinv h
  have hboundary (hidle : t.active = false) : t.fsm ≠ .awaitLut := by
    obtain ⟨-, -, -, hfsm, -⟩ := hidleInv hidle
    exact hfsm
  refine ⟨fun hawait => ?_, fun hidle => legal_setlut_of_ne_awaitLut (hboundary hidle)⟩
  have hactive : t.active = true := Bool.eq_true_of_not_eq_false fun hidle => hboundary hidle hawait
  obtain ⟨i, hlaunched, -⟩ := (activeInv_iff hactive).mp (hactiveInv hactive)
  obtain rfl := hlaunched.init_of_awaitLut hawait
  exact ⟨hactive, hlaunched.word⟩

end Sys2Proof.Machine
end

section
/-! Proofs of the statements of 43_busy_synchronizer: the polls of a wait, counted, the draws each operation takes, and
WAITIDLE. -/

namespace Sys2Proof.Machine

/-! ### The polls of a wait -/

theorem pollCount_busyPolls (c : Config) (n : Nat) : pollCount (busyPolls c n) = n := by
  induction n with
  | zero => rfl
  | succ n ih =>
    rw [busyPolls_succ, pollCount_append, ih]
    exact Nat.add_comm 1 n

theorem pollCount_busyPolls_append_poll (c : Config) {n : Nat} (hn : 1 ≤ n) (v : Level) :
    pollCount (busyPolls c (n - 1) ++ [.poll v]) = n := by
  rw [pollCount_append, pollCount_busyPolls]
  exact Nat.sub_add_cancel hn

namespace WaitMeets

variable {s : State} {ok : Bool} {E : List Event} {n : Nat} (h : WaitMeets s ok E n)
include h

/-- The bounds of 43 R153: a configuration allows at least one poll. -/
theorem draws_bounds : 1 ≤ n ∧ n ≤ s.cfg.maxPolls := by
  cases h with
  | ready h =>
    obtain ⟨hpos, hle, -⟩ := h
    exact ⟨hpos, hle⟩
  | never => exact ⟨s.cfg.maxPolls_pos, le_rfl⟩

/-- A wait takes as many draws as it makes polls (43 R153). -/
theorem pollCount_eq : pollCount E = n := by
  obtain ⟨hpos, -⟩ := h.draws_bounds
  cases h with
  | ready | never => exact pollCount_busyPolls_append_poll s.cfg hpos _

theorem pollCount_trace : pollCount s.waitUntilIdle.2.trace = pollCount s.trace + n := by
  rw [waitUntilIdle_eq h, pollCount_append, h.pollCount_eq]

end WaitMeets

/-- Settles O15: `N` says which poll is the last, and with it what the wait meets. -/
theorem pollCountLaw : Obligations.PollCountLaw := by
  intro s N hbusy hready
  split
  · next hle =>
    have h : WaitMeets s true (readyWait s.cfg (N + 1)) (N + 1) := .ready ⟨N.succ_pos, hle, hbusy, hready⟩
    refine ⟨?_, ?_, h.pollCount_trace⟩ <;> rw [waitUntilIdle_eq h]
    exact (List.append_assoc ..).symm
  · next hlt =>
    have h : WaitMeets s false (failedWait s.cfg) s.cfg.maxPolls := .never fun j hj => hbusy j (by omega)
    refine ⟨?_, ?_, h.pollCount_trace⟩ <;> rw [waitUntilIdle_eq h]
    exact (List.append_assoc ..).symm

/-! ### The draws of an operation -/

theorem pollCount_pulseEvents (c : Config) : pollCount (pulseEvents c) = 0 := rfl

theorem pollCount_frameEvents (c : Config) (bytes : List Byte) : pollCount (frameEvents c bytes) = 0 := by
  have hmap : frameEvents c bytes = (Tx.cmd c.dtmCmd :: bytes.map .data ++ [Tx.cmd c.refreshCmd]).map Tx.event := by
    simp [frameEvents, dataEvents, Tx.event]
  rw [hmap, pollCount_map_event]

/-- The transactions of a frame add no poll to those of the wait. -/
theorem pollCount_frameEvents_append (c : Config) (bytes : List Byte) (E : List Event) :
    pollCount (frameEvents c bytes ++ E) = pollCount E := by
  rw [pollCount_append, pollCount_frameEvents, Nat.zero_add]

/-- Of INIT's events, only those of the wait are polls. -/
theorem pollCount_initEvents_of_wait (c : Config) (E : List Event) (ok : Bool) :
    pollCount (pulseEvents c ++ E ++ if ok then seqEvents c.initCfg ++ lutEvents c else []) = pollCount E := by
  have hrest : pollCount (if ok then seqEvents c.initCfg ++ lutEvents c else []) = 0 := by
    cases ok
    · rfl
    · exact (pollCount_append _ _).trans (by rw [pollCount_seqEvents, pollCount_lutEvents])
  rw [pollCount_append, pollCount_append, hrest, pollCount_pulseEvents, Nat.zero_add, Nat.add_zero]

/-- Draws are taken by polls alone, and an operation that waits polls (43 R153). -/
theorem exec_draws {i : Instr} {s t : State} (ht : exec i s = .next t) : ∃ E, t.trace = s.trace ++ E ∧
    t.nDraws = s.nDraws + pollCount E ∧
    (i = .init ∨ i = .clear ∨ i = .waitidle ∨ ((∃ inv, i = .display inv) ∧ OperandsFit s) → 1 ≤ pollCount E) := by
  obtain ⟨ok, E, n, h⟩ := exists_waitMeets s
  obtain ⟨hpos, -⟩ := h.draws_bounds
  obtain rfl := h.pollCount_eq
  cases i with
  | init =>
    have hpolls := pollCount_initEvents_of_wait s.cfg E ok
    rw [exec_init_eq h] at ht; cases ht
    exact ⟨_, rfl, congrArg (s.nDraws + ·) hpolls.symm, fun _ => hpos.trans_eq hpolls.symm⟩
  | reset =>
    rw [exec_reset_eq] at ht; cases ht
    exact ⟨_, rfl, rfl, by simp⟩
  | setlut =>
    rw [exec_setlut_eq] at ht; cases ht
    exact ⟨_, rfl, congrArg (s.nDraws + ·) (pollCount_lutEvents s.cfg).symm, by simp⟩
  | display inv =>
    by_cases hfit : OperandsFit s
    · have hpolls := pollCount_frameEvents_append s.cfg (frameBytes s inv) E
      rw [exec_display_eq hfit h] at ht; cases ht
      exact ⟨_, rfl, congrArg (s.nDraws + ·) hpolls.symm, fun _ => hpos.trans_eq hpolls.symm⟩
    · rw [exec_display_misfit hfit] at ht; cases ht
      exact ⟨[], (List.append_nil _).symm, rfl, by simp [hfit]⟩
  | clear =>
    have hpolls := pollCount_frameEvents_append s.cfg (List.replicate s.cfg.fbLen s.cfg.clearByte) E
    rw [exec_clear_eq h] at ht; cases ht
    exact ⟨_, rfl, congrArg (s.nDraws + ·) hpolls.symm, fun _ => hpos.trans_eq hpolls.symm⟩
  | sleep =>
    rw [exec_sleep_eq] at ht; cases ht
    exact ⟨_, rfl, congrArg (s.nDraws + ·) (pollCount_seqEvents s.cfg.sleepSeq).symm, by simp⟩
  | waitidle =>
    rw [exec_waitidle_eq h] at ht; cases ht
    exact ⟨_, rfl, rfl, fun _ => hpos⟩

/-- Settles O16: the wait by what it meets, the operations by `exec_draws`. -/
theorem everyWaitPollsAtLeastOnce : Obligations.EveryWaitPollsAtLeastOnce := by
  refine ⟨fun s => ?_, fun i s t => exec_draws⟩
  obtain ⟨ok, E, n, h⟩ := exists_waitMeets s
  obtain ⟨hpos, hle⟩ := h.draws_bounds
  obtain rfl := h.pollCount_eq
  exact ⟨E, hpos, hle, by rw [waitUntilIdle_eq h]⟩

/-! ### WAITIDLE -/

/-- Settles O23: `exec_waitidle_eq` at each answer of the wait; only a wait that sees ready leads out of BUSY. -/
theorem waitidleWaitsForReady : Obligations.WaitidleWaitsForReady := by
  refine ⟨rfl, fun s => ⟨fun k hk => ?_, fun hnever => ?_⟩⟩
  · have heq := exec_waitidle_eq (.ready hk)
    simp only [and_true] at heq
    exact ⟨_, _, heq⟩
  · have heq := exec_waitidle_eq (.never hnever)
    rw [if_neg (by simp)] at heq
    exact ⟨_, _, heq⟩

end Sys2Proof.Machine
end

section
/-! Proofs of the statements of 44_framebuffer_serializer: the transactions of a frame, the operand check of DISPLAY,
its inversion, and CLEAR. -/

namespace Sys2Proof.Machine

/-! ### The transactions of a frame -/

theorem frameEvents_length (c : Config) (bytes : List Byte) : (frameEvents c bytes).length = bytes.length + 2 := by
  simp [frameEvents, dataEvents]

/-- Settles O13: `sendFrame_eq`, which leaves the flip-flops alone before the wait; the frame has `FB_LEN` bytes. -/
theorem sendFrameEmitsTheFrameThenWaits : Obligations.SendFrameEmitsTheFrameThenWaits := by
  intro s src
  refine ⟨frameEvents s.cfg ((List.range s.cfg.fbLen).map src), s.sync, ?_, ?_, sendFrame_eq s src⟩
  · rw [frameEvents, dataEvents, List.map_map]
    rfl
  · rw [frameEvents_length, List.length_map, List.length_range]

/-! ### DISPLAY -/

/-- Settles O25: either condition fails the operand check, and DISPLAY is then its completion alone. -/
theorem displayRejectsAMisfitBuffer : Obligations.DisplayRejectsAMisfitBuffer := by
  intro inv s hbad
  have hmisfit : ¬ OperandsFit s := by
    rintro ⟨hlen, hend⟩
    rcases hbad with hne | hlt
    · exact hne hlen
    · exact Nat.not_lt.mpr hend hlt
  exact ⟨_, _, exec_display_misfit hmisfit inv⟩

/-- Complementing twice gives the byte back (44 R172). -/
theorem frameBytes_complement {s : State} {m : List Host.Cell}
    (h : ∀ i < s.cfg.fbLen, Memory.read m (s.seq.base + i) = ~~~(s.memRead (s.seq.base + i))) :
    frameBytes { s with mem := m } true = frameBytes s false := by
  refine List.map_congr_left fun i hi => ?_
  have hread : State.memRead { s with mem := m } (s.seq.base + i) = ~~~(s.memRead (s.seq.base + i)) :=
    h i (List.mem_range.mp hi)
  simp [hread]

/-- Settles O26: memory reaches a DISPLAY only through the bytes of its frame, which are the same; the operand check
does not read it. -/
theorem invertedDisplayOfComplementIsTheSame : Obligations.InvertedDisplayOfComplementIsTheSame := by
  intro s m hm
  by_cases hfit : OperandsFit s
  · obtain ⟨ok, E, n, h⟩ := exists_waitMeets s
    have hinv := exec_display_eq (s := { s with mem := m }) hfit (h.congr rfl rfl rfl) true
    rw [frameBytes_complement hm] at hinv
    exact ⟨_, exec_display_eq hfit h false, hinv⟩
  · exact ⟨_, exec_display_misfit hfit false, exec_display_misfit (s := { s with mem := m }) hfit true⟩

/-! ### CLEAR -/

/-- Settles O27: `exec_clear_eq` at each answer of the wait; a wait that sees ready leads from READY back to READY. -/
theorem clearSendsAUniformFrame : Obligations.ClearSendsAUniformFrame := by
  refine ⟨rfl, fun s => ⟨fun hready => ?_, fun k hk => ?_, fun hnever => ?_⟩⟩
  · rw [launch_of_fit (i := .clear) nofun, begun_fsm, hready]; rfl
  · have hfsm : (if s.fsm = .ready then .ready else s.fsm) = s.fsm := ite_eq_right_iff.mpr Eq.symm
    have heq := exec_clear_eq (.ready hk)
    rw [if_pos rfl, hfsm] at heq
    exact ⟨_, _, heq⟩
  · exact ⟨_, _, exec_clear_eq (.never hnever)⟩

theorem frameBytes_uniform {s : State} {b : Byte} (h : ∀ i < s.cfg.fbLen, s.memRead (s.seq.base + i) = b) :
    frameBytes s false = List.replicate s.cfg.fbLen b := by
  rw [List.eq_replicate_iff]
  refine ⟨by simp [frameBytes], fun x hx => ?_⟩
  obtain ⟨i, hi, rfl⟩ := List.mem_map.mp hx
  exact h i (List.mem_range.mp hi)

/-- Settles O28: the two operations have the same equation once their frames are the same, being legal in the same
states. -/
theorem clearIsDisplayOfAUniformBuffer : Obligations.ClearIsDisplayOfAUniformBuffer := by
  intro s hfit huniform
  obtain ⟨ok, E, n, h⟩ := exists_waitMeets s
  have hdisplay := exec_display_eq hfit h false
  rw [frameBytes_uniform huniform] at hdisplay
  exact ⟨_, exec_clear_eq h, hdisplay⟩

end Sys2Proof.Machine
end

section
/-! Proofs of the statements of 45_sleep: what SLEEP sends, and what can be done in ASLEEP. -/

namespace Sys2Proof.Machine

/-- Settles O29: `exec_sleep_eq`, whose events are the transactions of SLEEP_SEQ. -/
theorem sleepSendsTheSleepSequence : Obligations.SleepSendsTheSleepSequence :=
  ⟨rfl, fun s => ⟨_, _, exec_sleep_eq s⟩⟩

/-- The row of ASLEEP in the table of 40 R107. -/
theorem legal_asleep_iff (i : Instr) : legal i .asleep = true ↔ i = .init ∨ i = .reset ∨ i = .waitidle := by
  cases i with
  | init | reset | waitidle => exact iff_of_true rfl (by simp)
  | setlut | display | clear | sleep => exact iff_of_false Bool.false_ne_true (by simp)

/-- Settles O30: the row of ASLEEP; `exec_display_eq` where DISPLAY is not legal; and `exec_init_eq`, which does not
mention the state INIT starts from. -/
theorem asleepAllowsOnlyInitResetWaitidle : Obligations.AsleepAllowsOnlyInitResetWaitidle := by
  refine ⟨legal_asleep_iff, fun inv s hasleep hfit => ?_, fun s => ?_⟩
  · obtain ⟨ok, E, n, h⟩ := exists_waitMeets s
    have hillegal : legal (.display inv) s.fsm = false := by rw [hasleep]; rfl
    have hawake : s.fsm ≠ .ready := by rw [hasleep]; nofun
    refine ⟨_, E, exec_display_eq hfit h inv, ?_, (if_neg hawake).trans hasleep, rfl⟩
    simp [hillegal]
  · obtain ⟨ok, E, n, h⟩ := exists_waitMeets s
    have hstart (f : Fsm) : WaitMeets { s with fsm := f } ok E n := h.congr rfl rfl rfl
    exact ⟨_, _, exec_init_eq (hstart .asleep), exec_init_eq (hstart .uninit), rfl, rfl⟩

end Sys2Proof.Machine
end

section
/-! Proofs of the statements of 60_exceptions: the cause and the marks of TIMEOUT, and the order of the checks of one
word. -/

namespace Sys2Proof.Machine

/-! ### The operations that wait -/

/-- Operation `i`, accepted in `s`, comes to a wait: it is one of the four that have one, and a DISPLAY is not rejected
before it (60 R201). -/
def ComesToWait (i : Instr) (s : State) : Prop :=
  i = .init ∨ i = .clear ∨ i = .waitidle ∨ ((∃ inv, i = .display inv) ∧ OperandsFit s)

/-- The status of an operation that waits is the answer of its wait. No poll precedes the wait, and no event follows one
that gives up. -/
theorem ComesToWait.exec_status_trace {i : Instr} {s : State} (hwaits : ComesToWait i s) {ok : Bool} {E : List Event}
    {n : Nat} (h : WaitMeets s ok E n) : ∃ t P, exec i s = .next t ∧ t.status = waitStatus ok ∧ pollCount P = 0 ∧
      (ok = false → t.trace = s.trace ++ P ++ E) := by
  rcases hwaits with rfl | rfl | rfl | ⟨⟨inv, rfl⟩, hfit⟩
  · refine ⟨_, _, exec_init_eq h, rfl, pollCount_pulseEvents s.cfg, ?_⟩
    rintro rfl
    simp
  · exact ⟨_, _, exec_clear_eq h, rfl, pollCount_frameEvents _ _, fun _ => (List.append_assoc ..).symm⟩
  · exact ⟨_, [], exec_waitidle_eq h, rfl, rfl, fun _ => by simp⟩
  · exact ⟨_, _, exec_display_eq hfit h inv, rfl, pollCount_frameEvents _ _, fun _ => (List.append_assoc ..).symm⟩

theorem ComesToWait.exec_timeout {i : Instr} {s : State} (hwaits : ComesToWait i s) (hnever : NeverReady s) :
    ∃ t, exec i s = .next t ∧ t.status = .timeout := by
  obtain ⟨t, -, ht, hst, -⟩ := hwaits.exec_status_trace (.never hnever)
  exact ⟨t, ht, hst⟩

/-! ### TIMEOUT -/

section
variable {i : Instr} {s t : State} (ht : exec i s = .next t) (hst : t.status = .timeout)
include ht hst

/-- A DISPLAY that completes with TIMEOUT was not rejected. -/
theorem comesToWait_of_timeout : ComesToWait i s := by
  have h := exec_effect ht
  rcases h.timeout hst with hi | hi | hi | hdisplay
  · exact .inl hi
  · exact .inr (.inl hi)
  · exact .inr (.inr (.inl hi))
  · refine .inr (.inr (.inr ⟨hdisplay, not_not.mp fun hmisfit => ?_⟩))
    exact absurd (hst.symm.trans (h.badlen.mpr ⟨hdisplay, hmisfit⟩)) nofun

/-- The cause of a TIMEOUT, and where the failed wait stands in the trace. -/
theorem failedWait_of_timeout : NeverReady s ∧ ∃ P, t.trace = s.trace ++ P ++ failedWait s.cfg ∧ pollCount P = 0 := by
  obtain ⟨ok, E, n, hmeets⟩ := exists_waitMeets s
  obtain ⟨u, P, hu, hstatus, hP, htrace⟩ := (comesToWait_of_timeout ht hst).exec_status_trace hmeets
  obtain rfl := Host.Outcome.next.inj (ht.symm.trans hu)
  cases hmeets with
  | ready => exact absurd (hst.symm.trans hstatus) nofun
  | never hnever => exact ⟨hnever, P, htrace rfl, hP⟩

theorem fsm_of_timeout : i = .init ∧ t.fsm = .uninit ∨ i = .waitidle ∧ t.fsm = s.fsm ∨
    (i = .clear ∨ ∃ inv, i = .display inv) ∧ t.fsm = if s.fsm = .ready then .busy else s.fsm := by
  have h := exec_effect ht
  have hfsm := h.fsm
  rw [hst] at hfsm
  rcases h.timeout hst with rfl | rfl | rfl | ⟨inv, rfl⟩
  · exact .inl ⟨rfl, hfsm⟩
  · exact .inr (.inr ⟨.inl rfl, by simpa [legal, legalEnd] using hfsm⟩)
  · exact .inr (.inl ⟨rfl, by simpa [legal, legalEnd] using hfsm⟩)
  · exact .inr (.inr ⟨.inr ⟨inv, rfl⟩, by simpa [legal, legalEnd] using hfsm⟩)

end

theorem countP_delay_busyPolls (c : Config) (n : Nat) :
    (busyPolls c n).countP (fun e => e = .delay c.pollDelayMs) = n := by
  induction n with
  | zero => rfl
  | succ n ih =>
    rw [busyPolls_succ, List.countP_append, ih]
    simp [Nat.add_comm]

theorem countP_delay_failedWait (c : Config) :
    (failedWait c).countP (fun e => e = .delay c.pollDelayMs) = c.maxPolls - 1 := by
  rw [failedWait, List.countP_append, countP_delay_busyPolls]
  simp

/-- Settles O35: `ComesToWait.exec_status_trace` in both directions, the end state from `OpEffect`, and the events of the
failed wait counted. -/
theorem timeoutIsPrecise : Obligations.TimeoutIsPrecise := by
  refine ⟨fun i s hnever hwaits => ComesToWait.exec_timeout hwaits hnever, fun i s t ht hst => ?_⟩
  obtain ⟨hnever, htrace⟩ := failedWait_of_timeout ht hst
  exact ⟨hnever, by rw [hst]; rfl, htrace, pollCount_busyPolls_append_poll s.cfg s.cfg.maxPolls_pos _,
    countP_delay_failedWait s.cfg, fsm_of_timeout ht hst⟩

/-! ### The order of the checks -/

/-- A misuse does not keep an operation from its wait, and a wait that gives up does not take the flag back (60 R207). -/
theorem ComesToWait.exec_timeout_misuse {i : Instr} {s : State} (hwaits : ComesToWait i s) (hnever : NeverReady s)
    (hillegal : legal i s.fsm = false) : ∃ t, exec i s = .next t ∧ t.status = .timeout ∧ t.misuse = true := by
  obtain ⟨t, ht, hst⟩ := hwaits.exec_timeout hnever
  refine ⟨t, ht, hst, ?_⟩
  rw [(exec_effect ht).misuse, if_neg (by rw [hst]; nofun), hillegal]
  exact Bool.or_true _

/-- Settles O36: a word is illegal or runs an operation, one status either way; a DISPLAY is rejected before its legality
is looked at; and what comes to a wait is flagged first. -/
theorem checksAreTakenInOrder : Obligations.ChecksAreTakenInOrder := by
  refine ⟨fun s op rest hidle hin => ?_, fun s op rest why hidle hin hi => ?_, fun inv s hmisfit => ?_,
    fun inv s hfit hf hnever => ?_, fun s hf hnever => ?_⟩
  · cases hi : decode op.word with
    | instr i =>
      obtain ⟨t, ht, h⟩ := exists_exec i (s.accept op rest)
      exact ⟨t, (step_of_legalWord hidle hin hi).trans ht, h.statuses⟩
    | illegal why => exact ⟨_, step_of_illegalWord hidle hin hi, rfl⟩
  · exact ⟨_, step_of_illegalWord hidle hin hi, rfl, rfl, rfl⟩
  · exact ⟨_, exec_display_misfit hmisfit inv, rfl, rfl, rfl⟩
  · have hwaits : ComesToWait (.display inv) s := .inr (.inr (.inr ⟨⟨inv, rfl⟩, hfit⟩))
    exact hwaits.exec_timeout_misuse hnever (beq_eq_false_iff_ne.mpr hf)
  · have hwaits : ComesToWait .clear s := .inr (.inl rfl)
    exact hwaits.exec_timeout_misuse hnever (beq_eq_false_iff_ne.mpr hf)

end Sys2Proof.Machine
end

section
/-! Proofs of the statements of 70_reset_and_hazards: the milliseconds of each operation, and the block reset inside an
operation. -/

namespace Sys2Proof.Machine

/-! ### The delays of each list of events -/

@[simp] theorem delayTotal_append (E F : List Event) : delayTotal (E ++ F) = delayTotal E + delayTotal F := by
  simp [delayTotal]

@[simp] theorem delayTotal_cons (e : Event) (E : List Event) : delayTotal (e :: E) = e.ms + delayTotal E := rfl

@[simp] theorem delayTotal_nil : delayTotal [] = 0 := rfl

/-- No transaction is a delay. -/
theorem delayTotal_map_event (l : List Tx) : delayTotal (l.map Tx.event) = 0 := by
  induction l with
  | nil => rfl
  | cons x xs ih =>
    rw [List.map_cons, delayTotal_cons, ih]
    cases x <;> rfl

@[simp] theorem delayTotal_seqEvents (l : List CmdEntry) : delayTotal (seqEvents l) = 0 := by
  rw [← seqTransactions_event, delayTotal_map_event]

@[simp] theorem delayTotal_lutEvents (c : Config) : delayTotal (lutEvents c) = 0 := by
  rw [← lutTransactions_event, delayTotal_map_event]

@[simp] theorem delayTotal_frameEvents (c : Config) (bytes : List Byte) : delayTotal (frameEvents c bytes) = 0 := by
  have hdata : dataEvents bytes = (bytes.map Tx.data).map Tx.event := by rw [List.map_map]; rfl
  rw [frameEvents, delayTotal_append, delayTotal_cons, hdata, delayTotal_map_event]
  rfl

@[simp] theorem delayTotal_pulseEvents (c : Config) :
    delayTotal (pulseEvents c) = c.tRstLowMs + c.tRstHighMs := by
  simp [pulseEvents, Event.ms]

theorem delayTotal_busyPolls (c : Config) (n : Nat) : delayTotal (busyPolls c n) = n * c.pollDelayMs := by
  induction n with
  | zero => exact (Nat.zero_mul _).symm
  | succ n ih =>
    rw [busyPolls_succ, delayTotal_append, ih, Nat.succ_mul, Nat.add_comm]
    simp [Event.ms]

/-- One delay stands between two polls, and none after the last (43 R151). -/
theorem WaitMeets.delayTotal_eq {s : State} {ok : Bool} {E : List Event} {n : Nat} (h : WaitMeets s ok E n) :
    delayTotal E = (n - 1) * s.cfg.pollDelayMs := by
  cases h with
  | ready | never => exact (delayTotal_append _ _).trans (delayTotal_busyPolls _ _)

theorem exists_waitMeets_of_polls {s : State} {k : Nat}
    (hk : ReadyAtPoll s k ∨ NeverReady s ∧ k = s.cfg.maxPolls) : ∃ ok E, WaitMeets s ok E k := by
  rcases hk with hready | ⟨hnever, rfl⟩
  · exact ⟨_, _, .ready hready⟩
  · exact ⟨_, _, .never hnever⟩

/-! ### The time each operation takes -/

/-- Operation `i`, accepted in `s`, completes and takes `d` milliseconds, counting only its delays (70 R250). -/
def TakesMs (i : Instr) (s : State) (d : Nat) : Prop :=
  ∃ t, exec i s = .next t ∧ delayTotal t.trace = delayTotal s.trace + d

/-- The time is that of the events appended. -/
theorem takesMs_of_trace {i : Instr} {s t : State} (ht : exec i s = .next t) {E : List Event}
    (htrace : t.trace = s.trace ++ E) {d : Nat} (hE : delayTotal E = d) : TakesMs i s d :=
  ⟨t, ht, by rw [htrace, delayTotal_append, hE]⟩

section
variable {s : State} {ok : Bool} {E : List Event} {k : Nat} (h : WaitMeets s ok E k)
include h

theorem init_takesMs :
    TakesMs .init s (s.cfg.tRstLowMs + s.cfg.tRstHighMs + (k - 1) * s.cfg.pollDelayMs) := by
  refine takesMs_of_trace (exec_init_eq h) rfl ?_
  cases ok <;> simp [h.delayTotal_eq]

theorem clear_takesMs : TakesMs .clear s ((k - 1) * s.cfg.pollDelayMs) :=
  takesMs_of_trace (exec_clear_eq h) rfl (by simp [h.delayTotal_eq])

theorem waitidle_takesMs : TakesMs .waitidle s ((k - 1) * s.cfg.pollDelayMs) :=
  takesMs_of_trace (exec_waitidle_eq h) rfl h.delayTotal_eq

theorem display_takesMs (hfit : OperandsFit s) (inv : Bool) :
    TakesMs (.display inv) s ((k - 1) * s.cfg.pollDelayMs) :=
  takesMs_of_trace (exec_display_eq hfit h inv) rfl (by simp [h.delayTotal_eq])

end

/-- Settles O39: the equation of each operation names its events; the pulse and the wait alone hold delays. -/
theorem delayTotals : Obligations.DelayTotals := by
  refine fun s => ⟨fun k hk => ?_, fun inv hmisfit => ⟨_, exec_display_misfit hmisfit inv, rfl⟩,
    takesMs_of_trace (exec_reset_eq s) rfl (delayTotal_pulseEvents s.cfg),
    takesMs_of_trace (exec_setlut_eq s) rfl (delayTotal_lutEvents s.cfg),
    takesMs_of_trace (exec_sleep_eq s) rfl (delayTotal_seqEvents s.cfg.sleepSeq)⟩
  obtain ⟨ok, E, h⟩ := exists_waitMeets_of_polls hk
  exact ⟨init_takesMs h, clear_takesMs h, waitidle_takesMs h, fun inv hfit => display_takesMs h hfit inv⟩

/-! ### Moves of an operation that is still active -/

/-- A move that leaves the block active was made by an active block, and records no status. -/
theorem MoveEffect.of_active {s t : State} (h : MoveEffect s t) (hactive : t.active = true) :
    s.active = true ∧ t.statuses = s.statuses := by
  cases h with
  | goesOn h =>
    exact ⟨(congrArg State.active h.frame).symm.trans hactive, (congrArg State.statuses h.frame :)⟩
  | completes => cases hactive

theorem moves_of_active {n : Nat} {s : State} :
    (State.moves n s).active = true → s.active = true ∧ (State.moves n s).statuses = s.statuses := by
  refine moves_induction (P := fun u => u.active = true → s.active = true ∧ u.statuses = s.statuses)
    (fun u hu hactive => ?_) n fun hactive => ⟨hactive, rfl⟩
  obtain ⟨hbefore, hsame⟩ := (move_effect u).of_active hactive
  obtain ⟨hstart, hkept⟩ := hu hbefore
  exact ⟨hstart, hsame.trans hkept⟩

/-- A start that leaves the block active records no status: an illegal word and a rejected DISPLAY are complete. -/
theorem start_statuses_of_active {s : State} {op : HostOp} {rest : List Input}
    (hactive : (s.start op rest).active = true) : (s.start op rest).statuses = s.statuses := by
  cases hdecode : decode op.word with
  | illegal why =>
    rw [State.start, hdecode] at hactive
    cases hactive
  | instr i =>
    rw [State.start, hdecode] at hactive ⊢
    rcases launch_registers i (s.accept op rest) with ⟨-, hkept⟩ | ⟨hidle, -⟩
    · exact hkept
    · exact absurd (hidle.symm.trans hactive) nofun

/-! ### A word cut short -/

theorem moves_of_idle {s : State} (hidle : s.active = false) (n : Nat) : State.moves n s = s := by
  cases n with
  | zero => rfl
  | succ n => rw [State.moves, if_neg (by simp [hidle])]

/-- Any number of moves leaves the first events of a run that ends idle. -/
theorem Runs.trace_extends_moves {s t : State} {as : List Nat} (h : Runs s as t) (hidle : t.active = false)
    (n : Nat) : ∃ F, t.trace = (State.moves n s).trace ++ F := by
  induction h generalizing n with
  | refl => exact ⟨[], by rw [moves_of_idle hidle, List.append_nil]⟩
  | @quiet s _ _ hactive _ _ ih | @request s _ _ _ hactive _ _ _ _ ih =>
    cases n with
    | zero =>
      obtain ⟨E, hE, -⟩ := (move_effect s).event
      obtain ⟨F, hF⟩ := ih hidle 0
      exact ⟨E ++ F, by rw [hF, State.moves, hE, State.moves, List.append_assoc]⟩
    | succ n =>
      rw [State.moves, if_pos hactive]
      exact ih hidle n

/-- From a start with nothing offered or requested the moves lead to the end of the whole operation (40 R100). -/
theorem exists_runs_of_start {s : State} (op : HostOp) (rest : List Input) (htx : s.tx = none)
    (hfbRd : s.fbRd = none) :
    ∃ u as, runWord s op rest = .next u ∧ Runs (s.start op rest) as u ∧ u.active = false := by
  unfold runWord State.start
  cases hdecode : decode op.word with
  | illegal why => exact ⟨_, _, rfl, .refl _, rfl⟩
  | instr i =>
    obtain ⟨u, as, hu, hrun⟩ := Resting.movesRefine (s := s.accept op rest) ⟨rfl, hdecode, htx, hfbRd, rfl⟩
    exact ⟨u, as, hu, hrun, (exec_effect hu).active⟩

/-- Settles O50: `State.blockReset` keeps the trace that the moves left, which extends the old one
(`moves_trace_append`) and which the whole operation extends (`Runs.trace_extends_moves`). -/
theorem blockResetCutsAnOperation : Obligations.BlockResetCutsAnOperation := by
  intro s op n rest hidle hin htx hfbRd
  have hstep : step s = .next (s.cutWord op n rest) := by rw [step_of_idle hidle, hin, runInput]
  obtain ⟨u, as, hu, hrun, huidle⟩ := exists_runs_of_start op rest htx hfbRd
  obtain ⟨E, hE⟩ := moves_trace_append n (s.start op rest)
  rw [start_trace] at hE
  obtain ⟨F, hF⟩ := hrun.trace_extends_moves huidle n
  refine ⟨_, u, hstep, hu, rfl, ⟨E, F, hE, hF⟩, rfl, rfl, rfl, rfl, rfl, rfl, rfl, rfl,
    (moves_mem n _).trans (start_mem ..), (moves_cfg n _).trans (start_cfg ..), fun hactive => ?_⟩
  obtain ⟨hstart, hkept⟩ := moves_of_active hactive
  exact hkept.trans (start_statuses_of_active hstart)

end Sys2Proof.Machine
end
